-- ==== Sys2Proof/Word.lean ====
section
/-! DEFINITION. The word types of the core: 16-bit words and addresses, bytes, register indices
(spec/00_scope.md R6). -/

namespace Sys2Proof

/-- A 16-bit word: register contents, addresses, memory words and instruction words (R6, R10). -/
abbrev Word := BitVec 16

/-- Half of a word: one cell of the model's memory list, and the `u8` field (R71). -/
abbrev Byte := BitVec 8

/-- A register index, the 3-bit value of a register field (R74). -/
abbrev RegIdx := BitVec 3

/-- `trunc16(n)`: the word of `n` modulo 65536 (R10). -/
abbrev trunc16 (n : Int) : Word := BitVec.ofInt 16 n

end Sys2Proof
end

