-- ==== Sys2Proof/Syntax.lean ====
section
/-! DEFINITION. The instructions: one constructor per row of spec/opcode_table.json. The operands are the
fields the instruction uses (spec/30_encoding.md R71, R75), under the spec's names `d`, `s`, `t`, `imm6`,
`imm9`, `imm11`, `u4`, `u8`; bits the instruction ignores (R82) are no operands (log 7). -/

namespace Sys2Proof

/-- One constructor per row of the opcode table. -/
inductive Instr where
  /-- R190; its imm9 is ignored. -/
  | nop
  /-- R191. -/
  | brp (imm9 : BitVec 9)
  /-- R192. -/
  | brz (imm9 : BitVec 9)
  /-- R193. -/
  | brzp (imm9 : BitVec 9)
  /-- R194. -/
  | brn (imm9 : BitVec 9)
  /-- R195. -/
  | brnp (imm9 : BitVec 9)
  /-- R196. -/
  | brnz (imm9 : BitVec 9)
  /-- R197. -/
  | brnzp (imm9 : BitVec 9)
  /-- R130. -/
  | add (d s t : RegIdx)
  /-- R131. -/
  | mul (d s t : RegIdx)
  /-- R132. -/
  | sub (d s t : RegIdx)
  /-- R133. -/
  | div (d s t : RegIdx)
  /-- R134; `imm6` is insn[5:0], whose bit 5 is the mode bit 1 (R73, log 8). -/
  | addi (d s : RegIdx) (imm6 : BitVec 6)
  /-- R171; `d` is the first operand. -/
  | cmp (d t : RegIdx)
  /-- R172. -/
  | cmpu (d t : RegIdx)
  /-- R173. -/
  | cmpi (d : RegIdx) (imm6 : BitVec 6)
  /-- R174. -/
  | cmpiu (d : RegIdx) (imm6 : BitVec 6)
  /-- R201. -/
  | jsrr (s : RegIdx) (imm6 : BitVec 6)
  /-- R200. -/
  | jsr (imm11 : BitVec 11)
  /-- R140. -/
  | and (d s t : RegIdx)
  /-- R141; its `t` bits are ignored. -/
  | not (d s : RegIdx)
  /-- R142. -/
  | or (d s t : RegIdx)
  /-- R143. -/
  | xor (d s t : RegIdx)
  /-- R144; `imm6` is insn[5:0], whose bit 5 is the mode bit 1 (R73, log 8). -/
  | andi (d s : RegIdx) (imm6 : BitVec 6)
  /-- R210. -/
  | ldr (d s : RegIdx) (imm6 : BitVec 6)
  /-- R211; `d` is the stored register. -/
  | str (d s : RegIdx) (imm6 : BitVec 6)
  /-- R221. -/
  | rti
  /-- R180. -/
  | const (d : RegIdx) (imm9 : BitVec 9)
  /-- R145. -/
  | sll (d s : RegIdx) (u4 : BitVec 4)
  /-- R146. -/
  | sra (d s : RegIdx) (u4 : BitVec 4)
  /-- R147. -/
  | srl (d s : RegIdx) (u4 : BitVec 4)
  /-- R148. -/
  | mod (d s t : RegIdx)
  /-- R203. -/
  | jmpr (s : RegIdx) (imm6 : BitVec 6)
  /-- R202. -/
  | jmp (imm11 : BitVec 11)
  /-- R181. -/
  | hiconst (d : RegIdx) (u8 : Byte)
  /-- R220. -/
  | trap (u8 : Byte)
  /-- R222, opcode 3. -/
  | undefOp3
  /-- R222, opcode 11. -/
  | undefOp11
  /-- R222, opcode 14. -/
  | undefOp14
  deriving DecidableEq, Repr

end Sys2Proof
end

