-- ==== Sys2Proof/WellFormed.lean ====
section
/-! DEFINITION. Which terms of `Instr` are instructions of the machine. Every operand fits its field by its
type; the one further check is that the low six bits of ADDI and ANDI carry the mode bit 1 at bit 5
(spec/30_encoding.md R71, R73, R76): with a 0 there the word would be ADD, MUL, SUB or DIV. -/

namespace Sys2Proof

/-- The term is the decoding of some word. -/
def Instr.wellFormed (i : Instr) : Bool :=
  match i with
  | .addi _ _ imm6 => imm6.getLsbD 5
  | .andi _ _ imm6 => imm6.getLsbD 5
  | .nop => true
  | .brp _ => true
  | .brz _ => true
  | .brzp _ => true
  | .brn _ => true
  | .brnp _ => true
  | .brnz _ => true
  | .brnzp _ => true
  | .add _ _ _ => true
  | .mul _ _ _ => true
  | .sub _ _ _ => true
  | .div _ _ _ => true
  | .cmp _ _ => true
  | .cmpu _ _ => true
  | .cmpi _ _ => true
  | .cmpiu _ _ => true
  | .jsrr _ _ => true
  | .jsr _ => true
  | .and _ _ _ => true
  | .not _ _ => true
  | .or _ _ _ => true
  | .xor _ _ _ => true
  | .ldr _ _ _ => true
  | .str _ _ _ => true
  | .rti => true
  | .const _ _ => true
  | .sll _ _ _ => true
  | .sra _ _ _ => true
  | .srl _ _ _ => true
  | .mod _ _ _ => true
  | .jmpr _ _ => true
  | .jmp _ => true
  | .hiconst _ _ => true
  | .trap _ => true
  | .undefOp3 => true
  | .undefOp11 => true
  | .undefOp14 => true

end Sys2Proof
end

