-- ==== Sys2Proof/Decode.lean ====
section
/-! DEFINITION. The decoder, total on every word (spec/30_encoding.md R70, R71, R77 to R84), the encoder, and
the rows of the opcode table. No word is rejected: the spec has no illegal encoding (R83). -/

namespace Sys2Proof

/-! ## Fields (R71) -/

/-- `op` = insn[15:12]. -/
def opField (w : Word) : BitVec 4 := w.extractLsb' 12 4
/-- `d` = insn[11:9]. -/
def dField (w : Word) : RegIdx := w.extractLsb' 9 3
/-- `s` = insn[8:6]. -/
def sField (w : Word) : RegIdx := w.extractLsb' 6 3
/-- `t` = insn[2:0]. -/
def tField (w : Word) : RegIdx := w.extractLsb' 0 3
/-- `imm6` = insn[5:0]. -/
def imm6Field (w : Word) : BitVec 6 := w.extractLsb' 0 6
/-- `imm9` = insn[8:0]. -/
def imm9Field (w : Word) : BitVec 9 := w.extractLsb' 0 9
/-- `imm11` = insn[10:0]. -/
def imm11Field (w : Word) : BitVec 11 := w.extractLsb' 0 11
/-- `m5` = insn[5]. -/
def m5Field (w : Word) : BitVec 1 := w.extractLsb' 5 1
/-- `m11` = insn[11]. -/
def m11Field (w : Word) : BitVec 1 := w.extractLsb' 11 1
/-- `u4` = insn[3:0]. -/
def u4Field (w : Word) : BitVec 4 := w.extractLsb' 0 4
/-- `u8` = insn[7:0]. -/
def u8Field (w : Word) : Byte := w.extractLsb' 0 8
/-- `cond` = insn[11:9]. -/
def condField (w : Word) : BitVec 3 := w.extractLsb' 9 3
/-- `subA` = insn[5:3]. -/
def subAField (w : Word) : BitVec 3 := w.extractLsb' 3 3
/-- `subS` = insn[5:4]. -/
def subSField (w : Word) : BitVec 2 := w.extractLsb' 4 2
/-- `subC` = insn[8:7]. -/
def subCField (w : Word) : BitVec 2 := w.extractLsb' 7 2

/-! ## The decoder -/

/-- Opcode 0: the condition field in the source's order (R81). -/
def decodeBranch (w : Word) : Instr :=
  match (condField w).toNat with
  | 0 => .nop
  | 1 => .brp (imm9Field w)
  | 2 => .brz (imm9Field w)
  | 3 => .brzp (imm9Field w)
  | 4 => .brn (imm9Field w)
  | 5 => .brnp (imm9Field w)
  | 6 => .brnz (imm9Field w)
  | _ => .brnzp (imm9Field w)

/-- Opcode 1: the selector `subA`; 1xx is ADDI whatever insn[4:3] hold (R76, R78). -/
def decodeArithmetic (w : Word) : Instr :=
  match (subAField w).toNat with
  | 0 => .add (dField w) (sField w) (tField w)
  | 1 => .mul (dField w) (sField w) (tField w)
  | 2 => .sub (dField w) (sField w) (tField w)
  | 3 => .div (dField w) (sField w) (tField w)
  | _ => .addi (dField w) (sField w) (imm6Field w)

/-- Opcode 2: the selector `subC`; the first operand is in `d` (R80). -/
def decodeCompare (w : Word) : Instr :=
  match (subCField w).toNat with
  | 0 => .cmp (dField w) (tField w)
  | 1 => .cmpu (dField w) (tField w)
  | 2 => .cmpi (dField w) (imm6Field w)
  | _ => .cmpiu (dField w) (imm6Field w)

/-- Opcode 4: `m11` = 1 is the relative form (R81). -/
def decodeSubroutine (w : Word) : Instr :=
  match (m11Field w).toNat with
  | 0 => .jsrr (sField w) (imm6Field w)
  | _ => .jsr (imm11Field w)

/-- Opcode 5: the selector `subA`; 1xx is ANDI whatever insn[4:3] hold (R76, R78). -/
def decodeLogical (w : Word) : Instr :=
  match (subAField w).toNat with
  | 0 => .and (dField w) (sField w) (tField w)
  | 1 => .not (dField w) (sField w)
  | 2 => .or (dField w) (sField w) (tField w)
  | 3 => .xor (dField w) (sField w) (tField w)
  | _ => .andi (dField w) (sField w) (imm6Field w)

/-- Opcode 10: the selector `subS`; bit 5 is no mode bit here (R79, conflict C2). -/
def decodeShift (w : Word) : Instr :=
  match (subSField w).toNat with
  | 0 => .sll (dField w) (sField w) (u4Field w)
  | 1 => .sra (dField w) (sField w) (u4Field w)
  | 2 => .srl (dField w) (sField w) (u4Field w)
  | _ => .mod (dField w) (sField w) (tField w)

/-- Opcode 12: `m11` = 1 is the relative form (R81). -/
def decodeJump (w : Word) : Instr :=
  match (m11Field w).toNat with
  | 0 => .jmpr (sField w) (imm6Field w)
  | _ => .jmp (imm11Field w)

/-- The instruction of a word: the opcode alone selects the class (R77, R102). -/
def decode (w : Word) : Instr :=
  match (opField w).toNat with
  | 0 => decodeBranch w
  | 1 => decodeArithmetic w
  | 2 => decodeCompare w
  | 3 => .undefOp3
  | 4 => decodeSubroutine w
  | 5 => decodeLogical w
  | 6 => .ldr (dField w) (sField w) (imm6Field w)
  | 7 => .str (dField w) (sField w) (imm6Field w)
  | 8 => .rti
  | 9 => .const (dField w) (imm9Field w)
  | 10 => decodeShift w
  | 11 => .undefOp11
  | 12 => decodeJump w
  | 13 => .hiconst (dField w) (u8Field w)
  | 14 => .undefOp14
  | _ => .trap (u8Field w)

/-! ## The encoder (R75), with 0 in every bit the instruction ignores -/

/-- Format BR, `0000 ccc iiiiiiiii`. -/
def encodeBranch (cond : BitVec 3) (imm9 : BitVec 9) : Word := 0b0000#4 ++ cond ++ imm9

/-- Format AR, `oooo ddd sss 0ff ttt`. -/
def encodeAr (op : BitVec 4) (d s : RegIdx) (sub : BitVec 2) (t : RegIdx) : Word :=
  op ++ d ++ s ++ 0b0#1 ++ sub ++ t

/-- Formats AI and MEM: an opcode, two registers and the low six bits. -/
def encodeRegImm6 (op : BitVec 4) (d s : RegIdx) (imm6 : BitVec 6) : Word := op ++ d ++ s ++ imm6

/-- Format CR, `0010 ddd ff x xxx ttt`. -/
def encodeCr (d : RegIdx) (sub : BitVec 2) (t : RegIdx) : Word := 0b0010#4 ++ d ++ sub ++ 0b0000#4 ++ t

/-- Format CI, `0010 ddd ff x iiiiii`. -/
def encodeCi (d : RegIdx) (sub : BitVec 2) (imm6 : BitVec 6) : Word :=
  0b0010#4 ++ d ++ sub ++ 0b0#1 ++ imm6

/-- Format JR, `oooo 0 xx sss iiiiii`. -/
def encodeJr (op : BitVec 4) (s : RegIdx) (imm6 : BitVec 6) : Word := op ++ 0b0#1 ++ 0b00#2 ++ s ++ imm6

/-- Format J11, `oooo 1 iiiiiiiiiii`. -/
def encodeJ11 (op : BitVec 4) (imm11 : BitVec 11) : Word := op ++ 0b1#1 ++ imm11

/-- Format SH, `1010 ddd sss ff uuuu`. -/
def encodeSh (d s : RegIdx) (sub : BitVec 2) (u4 : BitVec 4) : Word := 0b1010#4 ++ d ++ s ++ sub ++ u4

/-- Format MOD, `1010 ddd sss 11 x ttt`. -/
def encodeMod (d s t : RegIdx) : Word := 0b1010#4 ++ d ++ s ++ 0b11#2 ++ 0b0#1 ++ t

/-- Format CONST, `1001 ddd iiiiiiiii`. -/
def encodeConst (d : RegIdx) (imm9 : BitVec 9) : Word := 0b1001#4 ++ d ++ imm9

/-- Format HC, `1101 ddd x uuuuuuuu`. -/
def encodeHc (d : RegIdx) (u8 : Byte) : Word := 0b1101#4 ++ d ++ 0b0#1 ++ u8

/-- Format TRAP, `1111 xxxx uuuuuuuu`. -/
def encodeTrap (u8 : Byte) : Word := 0b1111#4 ++ 0b0000#4 ++ u8

/-- Formats RTI and NONE, `oooo xxxxxxxxxxxx`. -/
def encodeBare (op : BitVec 4) : Word := op ++ 0#12

/-- The word of an instruction, every ignored bit 0 (R75, R78 to R81). -/
def encode (i : Instr) : Word :=
  match i with
  | .nop => encodeBranch 0b000#3 0#9
  | .brp imm9 => encodeBranch 0b001#3 imm9
  | .brz imm9 => encodeBranch 0b010#3 imm9
  | .brzp imm9 => encodeBranch 0b011#3 imm9
  | .brn imm9 => encodeBranch 0b100#3 imm9
  | .brnp imm9 => encodeBranch 0b101#3 imm9
  | .brnz imm9 => encodeBranch 0b110#3 imm9
  | .brnzp imm9 => encodeBranch 0b111#3 imm9
  | .add d s t => encodeAr 0b0001#4 d s 0b00#2 t
  | .mul d s t => encodeAr 0b0001#4 d s 0b01#2 t
  | .sub d s t => encodeAr 0b0001#4 d s 0b10#2 t
  | .div d s t => encodeAr 0b0001#4 d s 0b11#2 t
  | .addi d s imm6 => encodeRegImm6 0b0001#4 d s imm6
  | .cmp d t => encodeCr d 0b00#2 t
  | .cmpu d t => encodeCr d 0b01#2 t
  | .cmpi d imm6 => encodeCi d 0b10#2 imm6
  | .cmpiu d imm6 => encodeCi d 0b11#2 imm6
  | .jsrr s imm6 => encodeJr 0b0100#4 s imm6
  | .jsr imm11 => encodeJ11 0b0100#4 imm11
  | .and d s t => encodeAr 0b0101#4 d s 0b00#2 t
  | .not d s => encodeAr 0b0101#4 d s 0b01#2 0b000#3
  | .or d s t => encodeAr 0b0101#4 d s 0b10#2 t
  | .xor d s t => encodeAr 0b0101#4 d s 0b11#2 t
  | .andi d s imm6 => encodeRegImm6 0b0101#4 d s imm6
  | .ldr d s imm6 => encodeRegImm6 0b0110#4 d s imm6
  | .str d s imm6 => encodeRegImm6 0b0111#4 d s imm6
  | .rti => encodeBare 0b1000#4
  | .const d imm9 => encodeConst d imm9
  | .sll d s u4 => encodeSh d s 0b00#2 u4
  | .sra d s u4 => encodeSh d s 0b01#2 u4
  | .srl d s u4 => encodeSh d s 0b10#2 u4
  | .mod d s t => encodeMod d s t
  | .jmpr s imm6 => encodeJr 0b1100#4 s imm6
  | .jmp imm11 => encodeJ11 0b1100#4 imm11
  | .hiconst d u8 => encodeHc d u8
  | .trap u8 => encodeTrap u8
  | .undefOp3 => encodeBare 0b0011#4
  | .undefOp11 => encodeBare 0b1011#4
  | .undefOp14 => encodeBare 0b1110#4

/-! ## Ignored bits and table rows -/

/-- The bits of the word that the instruction ignores (R75, R82; NOP's imm9, R190). -/
def Instr.ignoredBits (i : Instr) : Word :=
  match i with
  | .nop => 0x01FF
  | .brp _ => 0
  | .brz _ => 0
  | .brzp _ => 0
  | .brn _ => 0
  | .brnp _ => 0
  | .brnz _ => 0
  | .brnzp _ => 0
  | .add _ _ _ => 0
  | .mul _ _ _ => 0
  | .sub _ _ _ => 0
  | .div _ _ _ => 0
  | .addi _ _ _ => 0
  | .cmp _ _ => 0x0078
  | .cmpu _ _ => 0x0078
  | .cmpi _ _ => 0x0040
  | .cmpiu _ _ => 0x0040
  | .jsrr _ _ => 0x0600
  | .jsr _ => 0
  | .and _ _ _ => 0
  | .not _ _ => 0x0007
  | .or _ _ _ => 0
  | .xor _ _ _ => 0
  | .andi _ _ _ => 0
  | .ldr _ _ _ => 0
  | .str _ _ _ => 0
  | .rti => 0x0FFF
  | .const _ _ => 0
  | .sll _ _ _ => 0
  | .sra _ _ _ => 0
  | .srl _ _ _ => 0
  | .mod _ _ _ => 0x0008
  | .jmpr _ _ => 0x0600
  | .jmp _ => 0
  | .hiconst _ _ => 0x0100
  | .trap _ => 0x0F00
  | .undefOp3 => 0x0FFF
  | .undefOp11 => 0x0FFF
  | .undefOp14 => 0x0FFF

/-- The row's name in spec/opcode_table.json. -/
def Instr.mnemonic (i : Instr) : String :=
  match i with
  | .nop => "NOP"
  | .brp _ => "BRp"
  | .brz _ => "BRz"
  | .brzp _ => "BRzp"
  | .brn _ => "BRn"
  | .brnp _ => "BRnp"
  | .brnz _ => "BRnz"
  | .brnzp _ => "BRnzp"
  | .add _ _ _ => "ADD"
  | .mul _ _ _ => "MUL"
  | .sub _ _ _ => "SUB"
  | .div _ _ _ => "DIV"
  | .addi _ _ _ => "ADDI"
  | .cmp _ _ => "CMP"
  | .cmpu _ _ => "CMPU"
  | .cmpi _ _ => "CMPI"
  | .cmpiu _ _ => "CMPIU"
  | .jsrr _ _ => "JSRR"
  | .jsr _ => "JSR"
  | .and _ _ _ => "AND"
  | .not _ _ => "NOT"
  | .or _ _ _ => "OR"
  | .xor _ _ _ => "XOR"
  | .andi _ _ _ => "ANDI"
  | .ldr _ _ _ => "LDR"
  | .str _ _ _ => "STR"
  | .rti => "RTI"
  | .const _ _ => "CONST"
  | .sll _ _ _ => "SLL"
  | .sra _ _ _ => "SRA"
  | .srl _ _ _ => "SRL"
  | .mod _ _ _ => "MOD"
  | .jmpr _ _ => "JMPR"
  | .jmp _ => "JMP"
  | .hiconst _ _ => "HICONST"
  | .trap _ => "TRAP"
  | .undefOp3 => "UNDEF_OP3"
  | .undefOp11 => "UNDEF_OP11"
  | .undefOp14 => "UNDEF_OP14"

/-- One row of the opcode table: the words `w` with `w &&& mask = pattern`. -/
structure OpRow where
  /-- the row's "mnemonic" -/
  mnemonic : String
  /-- the row's "match" -/
  pattern : Word
  /-- the row's "mask" -/
  mask : Word
  deriving DecidableEq, Repr

/-- The word is one of the row's words. -/
def OpRow.selects (r : OpRow) (w : Word) : Bool := w &&& r.mask == r.pattern

/-- Rows of opcodes 0 to 4. -/
def opcodeRowsLow : List OpRow :=
  [⟨"NOP", 0x0000, 0xFE00⟩, ⟨"BRp", 0x0200, 0xFE00⟩, ⟨"BRz", 0x0400, 0xFE00⟩,
   ⟨"BRzp", 0x0600, 0xFE00⟩, ⟨"BRn", 0x0800, 0xFE00⟩, ⟨"BRnp", 0x0A00, 0xFE00⟩,
   ⟨"BRnz", 0x0C00, 0xFE00⟩, ⟨"BRnzp", 0x0E00, 0xFE00⟩, ⟨"ADD", 0x1000, 0xF038⟩,
   ⟨"MUL", 0x1008, 0xF038⟩, ⟨"SUB", 0x1010, 0xF038⟩, ⟨"DIV", 0x1018, 0xF038⟩,
   ⟨"ADDI", 0x1020, 0xF020⟩, ⟨"CMP", 0x2000, 0xF180⟩, ⟨"CMPU", 0x2080, 0xF180⟩,
   ⟨"CMPI", 0x2100, 0xF180⟩, ⟨"CMPIU", 0x2180, 0xF180⟩, ⟨"JSRR", 0x4000, 0xF800⟩,
   ⟨"JSR", 0x4800, 0xF800⟩]

/-- Rows of opcodes 5 to 15, and the unassigned opcodes, in the table's order. -/
def opcodeRowsHigh : List OpRow :=
  [⟨"AND", 0x5000, 0xF038⟩, ⟨"NOT", 0x5008, 0xF038⟩, ⟨"OR", 0x5010, 0xF038⟩,
   ⟨"XOR", 0x5018, 0xF038⟩, ⟨"ANDI", 0x5020, 0xF020⟩, ⟨"LDR", 0x6000, 0xF000⟩,
   ⟨"STR", 0x7000, 0xF000⟩, ⟨"RTI", 0x8000, 0xF000⟩, ⟨"CONST", 0x9000, 0xF000⟩,
   ⟨"SLL", 0xA000, 0xF030⟩, ⟨"SRA", 0xA010, 0xF030⟩, ⟨"SRL", 0xA020, 0xF030⟩,
   ⟨"MOD", 0xA030, 0xF030⟩, ⟨"JMPR", 0xC000, 0xF800⟩, ⟨"JMP", 0xC800, 0xF800⟩,
   ⟨"HICONST", 0xD000, 0xF000⟩, ⟨"TRAP", 0xF000, 0xF000⟩, ⟨"UNDEF_OP3", 0x3000, 0xF000⟩,
   ⟨"UNDEF_OP11", 0xB000, 0xF000⟩, ⟨"UNDEF_OP14", 0xE000, 0xF000⟩]

/-- The rows of spec/opcode_table.json, in its order (R84). -/
def opcodeTable : List OpRow := opcodeRowsLow ++ opcodeRowsHigh

/-! ## The host's view of the decoder -/

/-- The instruction read from the word whose `nbits` bits are `w`. An instruction is one 16-bit word (R70), so a
claim of more than 16 bits, or of a number that does not fit its bits, is no instruction (log 15). -/
def decodeTableWord (nbits w : Nat) : Option Instr :=
  if nbits ≤ 16 ∧ w < 2 ^ nbits then some (decode (BitVec.ofNat 16 w)) else none

end Sys2Proof
end

