-- ==== Sys2Proof/Config.lean ====
section
/-! DEFINITION. The named parameters the spec takes as arguments (spec/00_scope.md R7). Each choice the
spec marks OPEN is a value of `Params`; the machine carries one such record and never changes it
(log 1). `INIT_MEM`, the fourth parameter, is an argument of reset (Machine/Reset.lean). -/

namespace Sys2Proof

/-- `ALU_IMM_WIDTH` of R7: the width of the immediate of ADDI and ANDI (R73, decision D6). -/
inductive AluImmWidth where
  | six
  | five
  deriving DecidableEq, Repr

/-- `DIV_SIGNEDNESS` of R7: how DIV and MOD read their operands (R136, decision D9). -/
inductive Signedness where
  | signed
  | unsigned
  deriving DecidableEq, Repr

/-- The parameters of R7 that are choices among finitely many values. -/
structure Params where
  /-- `ALU_IMM_WIDTH`. -/
  aluImmWidth : AluImmWidth
  /-- `DIV_SIGNEDNESS`. -/
  divSignedness : Signedness
  /-- `TRAP_SETS_FLAGS` (R220, decision D8). -/
  trapSetsFlags : Bool
  deriving DecidableEq, Repr

end Sys2Proof
end

