-- ==== Sys2Proof/Machine/Constants.lean ====
section
/-! DEFINITION. The fixed addresses and numbers of the core (spec/00_scope.md R6) and the parameters' defaults
(R7). -/

namespace Sys2Proof.Machine

/-- The reset value of `pc`, the entry point (R24, R57). -/
def resetPc : Word := 0x8200

/-- The halt sentinel (R57, R100). -/
def haltAddr : Word := 0x80FF

/-- The trap vector base (R6, R220). -/
def trapBase : Word := 0x8000

/-- The link register, R7 (R26). -/
def linkReg : RegIdx := 7

/-- The privilege bit of `status`, bit 3 (R28). -/
def privBit : Word := 0x0008

/-- The default of every parameter (R7, log 1). -/
def defaultParams : Params :=
  { aluImmWidth := .six, divSignedness := .signed, trapSetsFlags := true }

end Sys2Proof.Machine
end

