-- ==== Sys2Proof/Machine/Flags.lean ====
section
/-! DEFINITION. The flag code, the status register's flag and mode fields, the branch conditions and the compare
outcomes (spec/40_datapath.md R104, R121, spec/10_state.md R28, spec/42_compare.md R170). -/

namespace Sys2Proof.Machine

/-- `code(v)`: 4 for a negative value, 2 for zero, 1 for a positive one (R104). -/
def flagCode (v : Word) : BitVec 3 :=
  if v.toInt < 0 then 4 else if v = 0 then 2 else 1

/-- The status register with `code` in bits 2..0 and every other bit kept (R104). -/
def withFlags (status : Word) (code : BitVec 3) : Word := status.extractLsb' 3 13 ++ code

/-- The flag field, status[2:0] (R28). -/
def flagField (status : Word) : BitVec 3 := status.extractLsb' 0 3

/-- The status register with PRIV set (R220). -/
def withPriv (status : Word) : Word := status ||| privBit

/-- P, status[0] (R28). -/
def flagP (status : Word) : Bool := status.getLsbD 0
/-- Z, status[1] (R28). -/
def flagZ (status : Word) : Bool := status.getLsbD 1
/-- N, status[2] (R28). -/
def flagN (status : Word) : Bool := status.getLsbD 2
/-- PRIV, status[3]: true in supervisor mode (R28). -/
def flagPriv (status : Word) : Bool := status.getLsbD 3

/-- `Taken(cond, status)` (R121). -/
def taken (cond : BitVec 3) (status : Word) : Bool :=
  match cond.toNat with
  | 0 => false
  | 1 => flagP status
  | 2 => flagZ status
  | 3 => flagZ status || flagP status
  | 4 => flagN status
  | 5 => flagN status || flagP status
  | 6 => flagN status || flagZ status
  | _ => true

/-- `CmpS(a, b)`: the exact signed order of the operands (R170). -/
def compareSigned (a b : Word) : Word :=
  if a.toInt < b.toInt then 0xFFFF else if a.toInt = b.toInt then 0 else 1

/-- `CmpU(a, b)`: the exact unsigned order of the operands (R170). -/
def compareUnsigned (a b : Word) : Word :=
  if a.toNat < b.toNat then 0xFFFF else if a.toNat = b.toNat then 0 else 1

end Sys2Proof.Machine
end

