-- ==== Sys2Proof/Machine/Operands.lean ====
section
/-! DEFINITION. Operand assembly and the values an instruction computes from its operands
(spec/00_scope.md R9, R10, spec/30_encoding.md R72, R73, spec/41_alu.md R136, R149, spec/43_constants.md R181). -/

namespace Sys2Proof.Machine

/-- `sext_N`: the field's top bit fills the higher bits (R9). -/
def sext {n : Nat} (v : BitVec n) : Word := v.signExtend 16

/-- `zext_N`: zeros fill the higher bits (R9). -/
def zext {n : Nat} (v : BitVec n) : Word := v.zeroExtend 16

/-- `aimm`, the immediate of ADDI and ANDI from insn[5:0], by `ALU_IMM_WIDTH` (R73). -/
def aluImm (width : AluImmWidth) (imm6 : BitVec 6) : Word :=
  match width with
  | .six => sext imm6
  | .five => sext (imm6.extractLsb' 0 5)

/-- `pc + 1` modulo 65536: the next address and the link value (R22). -/
def succWord (pc : Word) : Word := pc + 1

/-- The target of a relative transfer, `pc + 1 + offset` modulo 65536 (R22, R120). -/
def relTarget (pc offset : Word) : Word := pc + 1 + offset

/-- Base plus offset modulo 65536: effective addresses and register-indirect targets (R22, R52). -/
def baseOffset (base offset : Word) : Word := base + offset

/-- `trunc_toward_zero(a / b)` on integers (R136). -/
def truncQuot (a b : Int) : Int := Int.tdiv a b

/-- `Quot(a, b)` (R136): 0 for a zero divisor. -/
def quot (sg : Signedness) (a b : Word) : Word :=
  if b = 0 then 0
  else
    match sg with
    | .signed => trunc16 (truncQuot a.toInt b.toInt)
    | .unsigned => BitVec.ofNat 16 (a.toNat / b.toNat)

/-- `Rem(a, b)` (R136): 0 for a zero divisor. -/
def rem (sg : Signedness) (a b : Word) : Word :=
  if b = 0 then 0
  else
    match sg with
    | .signed => trunc16 (a.toInt - truncQuot a.toInt b.toInt * b.toInt)
    | .unsigned => BitVec.ofNat 16 (a.toNat % b.toNat)

/-- The low 16 bits of the signed product (R131). -/
def product (a b : Word) : Word := trunc16 (a.toInt * b.toInt)

/-- The logical left shift by `u4` (R145, R149). -/
def shiftLeft (a : Word) (u4 : BitVec 4) : Word := a <<< u4.toNat

/-- The arithmetic right shift by `u4` (R146, R149). -/
def shiftRightArith (a : Word) (u4 : BitVec 4) : Word := a.sshiftRight u4.toNat

/-- The logical right shift by `u4` (R147, R149). -/
def shiftRightLogic (a : Word) (u4 : BitVec 4) : Word := a >>> u4.toNat

/-- `u8` in bits 15..8 over the low byte of `a` (R181). -/
def highByteOver (a : Word) (u8 : Byte) : Word := (a &&& 0x00FF) ||| (zext u8 <<< 8)

/-- The trap vector, `0x8000 OR zext_8(u8)` (R220), over the vector base. -/
def vectorFrom (base : Word) (u8 : Byte) : Word := base ||| zext u8

end Sys2Proof.Machine
end

