-- ==== Sys2Proof/Machine/Memory.lean ====
section
/-! DEFINITION. The memory: 65536 words of 16 bits (spec/10_state.md R33, spec/20_memory.md R50, R53), held as a
list of byte cells in one canonical form. The word at address `a` is the cells `2a` (bits 7..0) and `2a + 1`
(bits 15..8); which half lies lower is the model's choice and no instruction can see it (R54, log 2). A cell that is not
listed reads as zero, the default of the memory image (R33, R263). -/

namespace Sys2Proof.Machine

/-- The cells that differ from zero, at strictly rising keys. -/
abbrev Memory := List Host.Cell

/-- The number of cells: two for each of the 65536 words. -/
def cellCount : Nat := 131072

/-- What a cell that is not listed reads as: the image is zero where the loader writes nothing (R33, R263). -/
def unlisted : Byte := 0

/-- The cell at key `k`. -/
def readByte (m : Memory) (k : Nat) : Byte :=
  match m with
  | [] => unlisted
  | (k', v) :: rest => if k = k' then v else readByte rest k

/-- The memory without a cell at key `k`. -/
def dropCell (m : Memory) (k : Nat) : Memory := m.filter fun c => c.1 != k

/-- The memory with a cell put before the first larger key. -/
def insertCell (m : Memory) (k : Nat) (v : Byte) : Memory :=
  match m with
  | [] => [(k, v)]
  | (k', v') :: rest => if k < k' then (k, v) :: (k', v') :: rest else (k', v') :: insertCell rest k v

/-- The memory with the cell at key `k` set to `v`; the unlisted value is not listed. -/
def writeByte (m : Memory) (k : Nat) (v : Byte) : Memory :=
  if v = unlisted then dropCell m k else insertCell (dropCell m k) k v

/-- The key of the cell that holds bits 7..0 of the word at `a`. -/
def lowKey (a : Word) : Nat := 2 * a.toNat

/-- The key of the cell that holds bits 15..8 of the word at `a`. -/
def highKey (a : Word) : Nat := 2 * a.toNat + 1

/-- The word at address `a` (R50, R53). -/
def readWord (m : Memory) (a : Word) : Word := readByte m (highKey a) ++ readByte m (lowKey a)

/-- The memory with the word at address `a` set to `v` (R53). -/
def writeWord (m : Memory) (a : Word) (v : Word) : Memory :=
  writeByte (writeByte m (lowKey a) (v.extractLsb' 0 8)) (highKey a) (v.extractLsb' 8 8)

/-- Keys strictly rise from `from_`, stay inside the address space, and no listed cell is zero. -/
def wfFrom (from_ : Nat) (m : Memory) : Bool :=
  match m with
  | [] => true
  | (k, v) :: rest => decide (from_ ≤ k) && decide (k < cellCount) && (v != unlisted) && wfFrom (k + 1) rest

/-- The canonical form: two memories in it that read alike are equal. -/
def Memory.wf (m : Memory) : Bool := wfFrom 0 m

/-- The memory that holds a loader's image, `INIT_MEM` of R7 and R33: written word by word, the first
`n` addresses. -/
def imageUpTo (image : Word → Word) (n : Nat) : Memory :=
  match n with
  | 0 => []
  | n + 1 => writeWord (imageUpTo image n) (BitVec.ofNat 16 n) (image (BitVec.ofNat 16 n))

/-- The memory that holds all 65536 words of a loader's image (R7, R33, R263). -/
def imageMemory (image : Word → Word) : Memory := imageUpTo image 65536

end Sys2Proof.Machine
end

