-- ==== Sys2Proof/Machine/State.lean ====
section
/-! DEFINITION. The state of the core, `(pc, x[0..7], status, mem, sig, run)` (spec/10_state.md), with two fields of
the model's own: the parameters of the run (log 1) and the trace records put out so far (log 3). -/

namespace Sys2Proof.Machine

/-- The control-signal snapshot (R30). -/
structure Signals where
  /-- register-write-enable -/
  regWE : Bool
  /-- destination-register-select -/
  regSel : RegIdx
  /-- register-input-value -/
  regIn : Word
  /-- flag-write-enable -/
  flagWE : Bool
  /-- flag-output-value: 0, or the flag code 1, 2 or 4 -/
  flagOut : BitVec 3
  /-- memory-write-enable -/
  memWE : Bool
  /-- memory-address -/
  memAddr : Word
  /-- memory-value -/
  memVal : Word
  deriving DecidableEq, Repr

/-- The cleared snapshot (R30, R31). -/
def Signals.cleared : Signals :=
  { regWE := false, regSel := 0, regIn := 0, flagWE := false, flagOut := 0,
    memWE := false, memAddr := 0, memVal := 0 }

/-- One trace record: the step's `pc` and instruction word, and the snapshot as it stood before the step
cleared it (R128). -/
structure TraceRecord where
  pc : Word
  insn : Word
  sig : Signals
  deriving DecidableEq, Repr

/-- The run state (R32). -/
inductive RunState where
  | running
  | halted
  deriving DecidableEq, Repr

/-- The machine's state. -/
structure State where
  /-- the program counter (R20) -/
  pc : Word
  /-- the general registers `x[0]` .. `x[7]` (R25) -/
  regs : Vector Word 8
  /-- the status register: P, Z, N and PRIV in bits 0 to 3 (R28) -/
  status : Word
  /-- the memory (R33) -/
  mem : Memory
  /-- the control-signal snapshot (R30, R31) -/
  sig : Signals
  /-- the run state (R32) -/
  run : RunState
  /-- the model's own: the records put out on the trace port since reset, newest first (R5, R128, log 3) -/
  trace : List TraceRecord
  /-- the model's own: the parameters of R7; no step changes them (log 1) -/
  params : Params
  deriving DecidableEq, Repr

/-- The reasons a step could stop with a fault. There is none: no instruction raises an exception and nothing
stops the core but the halt check, which is a next state (R103, R240, log 9). -/
inductive Fault where
  deriving DecidableEq, Repr

/-- The reasons a step could refuse an instruction. -/
inductive Refusal where
  /-- Raised by a refused arm of Dispatch.lean only, for an instruction without a meaning; no arm raises it.
  Safe: the model stops where the core goes on. -/
  | notModelled (mnemonic : String)
  deriving DecidableEq, Repr

/-- What a step answers. -/
abbrev Result := Host.Outcome State Fault Refusal

/-- The state right after reset with the loader supplying nothing and every parameter at its default
(R24, R27, R29, R31, R32, R33, R260). -/
def State.reset : State :=
  { pc := resetPc
    regs := Vector.replicate 8 0
    status := 0
    mem := []
    sig := Signals.cleared
    run := .running
    trace := []
    params := defaultParams }

end Sys2Proof.Machine
end

