-- ==== Sys2Proof/Machine/Ops.lean ====
section
/-! DEFINITION. The named operations every instruction is written with: register, flag and memory access with the
snapshot fields each writes (spec/40_datapath.md R104, R126), the program counter, trap entry and trap return
(spec/60_exceptions.md R243, R244), and what a step does before its handler (R100). -/

namespace Sys2Proof.Machine

/-- Read `x[r]` (R11). -/
def readReg (s : State) (r : RegIdx) : Word := s.regs[r.toNat]'r.isLt

/-- Write `x[r] <- v`, with the snapshot's register fields (R111, R126). -/
def writeReg (s : State) (r : RegIdx) (v : Word) : State :=
  { s with
    regs := s.regs.set r.toNat v r.isLt
    sig := { s.sig with regWE := true, regSel := r, regIn := v } }

/-- `SetFlags(v)`: the flag field, and the snapshot's flag fields (R104). -/
def setFlags (s : State) (v : Word) : State :=
  { s with
    status := withFlags s.status (flagCode v)
    sig := { s.sig with flagWE := true, flagOut := flagCode v } }

/-- `MemRead(a, 1)` (R11, R53). -/
def memRead (s : State) (a : Word) : Word := readWord s.mem a

/-- The snapshot's memory fields for a load; `memWE` stays as it is (R210). -/
def noteLoad (s : State) (a v : Word) : State :=
  { s with sig := { s.sig with memAddr := a, memVal := v } }

/-- `MemWrite(a, 1, v)`, with the snapshot's memory fields (R211). -/
def memWrite (s : State) (a v : Word) : State :=
  { s with
    mem := writeWord s.mem a v
    sig := { s.sig with memWE := true, memAddr := a, memVal := v } }

/-- `pc <- target` (R11, R21). -/
def jumpTo (s : State) (target : Word) : State := { s with pc := target }

/-- `pc <- pc + 1` (R21, R22). -/
def advance (s : State) : State := jumpTo s (succWord s.pc)

/-- `x[r] <- v` and `SetFlags(v)`, the two writes of every result that goes to a register (R105, R106). -/
def writeResult (s : State) (r : RegIdx) (v : Word) : State := setFlags (writeReg s r v) v

/-- The whole effect of an instruction that computes `v` into `x[d]` (R135): the result, its flags, `pc + 1`. -/
def finishResult (s : State) (d : RegIdx) (v : Word) : State := advance (writeResult s d v)

/-- The whole effect of a compare whose outcome is `v` (R170). -/
def finishCompare (s : State) (v : Word) : State := advance (setFlags s v)

/-- A branch: taken, to `pc + 1 + sext_9(imm9)`; not taken, to `pc + 1` (R120, R121). -/
def branchOn (cond : BitVec 3) (imm9 : BitVec 9) (s : State) : State :=
  if taken cond s.status then jumpTo s (relTarget s.pc (sext imm9)) else advance s

/-- The link of JSR and JSRR: `pc + 1` into R7, with its flags (R200, R201). -/
def linkCall (s : State) : State := writeResult s linkReg (succWord s.pc)

/-- The effective address `x[r] + sext_6(imm6)` (R52); also the register-indirect target (R120). -/
def effAddr (s : State) (r : RegIdx) (imm6 : BitVec 6) : Word := baseOffset (readReg s r) (sext imm6)

/-- Trap entry (R220, R243): the link in R7, its flags where `TRAP_SETS_FLAGS` holds, supervisor mode, the fixed
vector. Nothing else is saved. -/
def enterTrap (s : State) (u8 : Byte) : State :=
  let linked := writeReg s linkReg (succWord s.pc)
  let flagged := if s.params.trapSetsFlags then setFlags linked (succWord s.pc) else linked
  jumpTo { flagged with status := withPriv flagged.status } (vectorFrom trapBase u8)

/-- Trap return (R221, R244): `pc <- x[7]` and the whole status cleared. -/
def returnFromTrap (s : State) : State :=
  jumpTo { s with status := 0 } (readReg s linkReg)

/-! ## Around the handler (R100) -/

/-- The instruction fetch (R60, R124). -/
def fetch (s : State) : Word := memRead s s.pc

/-- The record a step emits (R128). -/
def traceRecord (s : State) : TraceRecord := { pc := s.pc, insn := fetch s, sig := s.sig }

/-- `EmitTrace`: the record joins those put out so far (R100, R128). -/
def emitTrace (s : State) : State := { s with trace := traceRecord s :: s.trace }

/-- The clear of the snapshot (R31, R100). -/
def clearSig (s : State) : State := { s with sig := Signals.cleared }

/-- What a step does between the fetch and the handler: emit the record, then clear the snapshot (R100, conflict C1). -/
def beforeHandler (s : State) : State := clearSig (emitTrace s)

/-- `run <- Halted`, and nothing else (R100). -/
def halt (s : State) : State := { s with run := .halted }

/-- The `halted` output, and the value a step returns (R5, R103). -/
def State.halted (s : State) : Bool := s.run == .halted

/-- The state's next step executes an instruction: running, and not at the sentinel (R100). -/
def State.executes (s : State) : Bool := (s.run == .running) && (s.pc != haltAddr)

end Sys2Proof.Machine
end

