-- ==== Sys2Proof/Machine/Arithmetic.lean ====
section
/-! DEFINITION. The arithmetic class, opcode 1 (spec/41_alu.md section 2). -/

namespace Sys2Proof.Machine

/-- ADD: the sum modulo 65536 (R130). -/
def execAdd (d s t : RegIdx) (st : State) : Result :=
  .next (finishResult st d (readReg st s + readReg st t))

/-- MUL: the low 16 bits of the product (R131). -/
def execMul (d s t : RegIdx) (st : State) : Result :=
  .next (finishResult st d (product (readReg st s) (readReg st t)))

/-- SUB: the difference modulo 65536 (R132). -/
def execSub (d s t : RegIdx) (st : State) : Result :=
  .next (finishResult st d (readReg st s - readReg st t))

/-- DIV: `Quot`, 0 for a zero divisor (R133, R136). -/
def execDiv (d s t : RegIdx) (st : State) : Result :=
  .next (finishResult st d (quot st.params.divSignedness (readReg st s) (readReg st t)))

/-- ADDI: the sum with `aimm` (R134, R73). -/
def execAddi (d s : RegIdx) (imm6 : BitVec 6) (st : State) : Result :=
  .next (finishResult st d (readReg st s + aluImm st.params.aluImmWidth imm6))

end Sys2Proof.Machine
end

