-- ==== Sys2Proof/Machine/Compare.lean ====
section
/-! DEFINITION. The compare class, opcode 2: flags only (spec/42_compare.md). The first operand is `x[d]`. -/

namespace Sys2Proof.Machine

/-- CMP: signed, two registers (R171). -/
def execCmp (d t : RegIdx) (st : State) : Result :=
  .next (finishCompare st (compareSigned (readReg st d) (readReg st t)))

/-- CMPU: unsigned, two registers (R172). -/
def execCmpu (d t : RegIdx) (st : State) : Result :=
  .next (finishCompare st (compareUnsigned (readReg st d) (readReg st t)))

/-- CMPI: signed, against the sign-extended immediate (R173). -/
def execCmpi (d : RegIdx) (imm6 : BitVec 6) (st : State) : Result :=
  .next (finishCompare st (compareSigned (readReg st d) (sext imm6)))

/-- CMPIU: unsigned, against the zero-extended immediate (R174). -/
def execCmpiu (d : RegIdx) (imm6 : BitVec 6) (st : State) : Result :=
  .next (finishCompare st (compareUnsigned (readReg st d) (zext imm6)))

end Sys2Proof.Machine
end

