-- ==== Sys2Proof/Machine/ConstantLoad.lean ====
section
/-! DEFINITION. The constant classes, opcodes 9 and 13 (spec/43_constants.md). -/

namespace Sys2Proof.Machine

/-- CONST: the sign-extended immediate (R180). -/
def execConst (d : RegIdx) (imm9 : BitVec 9) (st : State) : Result :=
  .next (finishResult st d (sext imm9))

/-- HICONST: the high byte replaced, the low byte kept (R181). -/
def execHiconst (d : RegIdx) (u8 : Byte) (st : State) : Result :=
  .next (finishResult st d (highByteOver (readReg st d) u8))

end Sys2Proof.Machine
end

