-- ==== Sys2Proof/Machine/Control.lean ====
section
/-! DEFINITION. Branches, jumps and subroutine jumps, opcodes 0, 4 and 12 (spec/44_control_transfer.md). -/

namespace Sys2Proof.Machine

/-- NOP: the branch that is never taken (R190). -/
def execNop (st : State) : Result :=
  .next (advance st)

/-- BRp: taken on P (R191). -/
def execBrp (imm9 : BitVec 9) (st : State) : Result :=
  .next (branchOn 1 imm9 st)

/-- BRz: taken on Z (R192). -/
def execBrz (imm9 : BitVec 9) (st : State) : Result :=
  .next (branchOn 2 imm9 st)

/-- BRzp: taken on Z or P (R193). -/
def execBrzp (imm9 : BitVec 9) (st : State) : Result :=
  .next (branchOn 3 imm9 st)

/-- BRn: taken on N (R194). -/
def execBrn (imm9 : BitVec 9) (st : State) : Result :=
  .next (branchOn 4 imm9 st)

/-- BRnp: taken on N or P (R195). -/
def execBrnp (imm9 : BitVec 9) (st : State) : Result :=
  .next (branchOn 5 imm9 st)

/-- BRnz: taken on N or Z (R196). -/
def execBrnz (imm9 : BitVec 9) (st : State) : Result :=
  .next (branchOn 6 imm9 st)

/-- BRnzp: taken always, whatever the flags (R197). -/
def execBrnzp (imm9 : BitVec 9) (st : State) : Result :=
  .next (branchOn 7 imm9 st)

/-- JSR: the link, then the relative target (R200). -/
def execJsr (imm11 : BitVec 11) (st : State) : Result :=
  .next (jumpTo (linkCall st) (relTarget st.pc (sext imm11)))

/-- JSRR: the link first, so a base of R7 reads the link (R201, R12, R112). -/
def execJsrr (s : RegIdx) (imm6 : BitVec 6) (st : State) : Result :=
  .next (jumpTo (linkCall st) (effAddr (linkCall st) s imm6))

/-- JMP: the relative target (R202). -/
def execJmp (imm11 : BitVec 11) (st : State) : Result :=
  .next (jumpTo st (relTarget st.pc (sext imm11)))

/-- JMPR: register plus offset (R203). -/
def execJmpr (s : RegIdx) (imm6 : BitVec 6) (st : State) : Result :=
  .next (jumpTo st (effAddr st s imm6))

end Sys2Proof.Machine
end

