-- ==== Sys2Proof/Machine/LoadStore.lean ====
section
/-! DEFINITION. Load and store, opcodes 6 and 7 (spec/45_load_store.md). -/

namespace Sys2Proof.Machine

/-- LDR: the word at the effective address into `x[d]`, its flags, and the snapshot's memory fields (R210). -/
def execLdr (d s : RegIdx) (imm6 : BitVec 6) (st : State) : Result :=
  let ea := effAddr st s imm6
  let r := memRead st ea
  .next (advance (noteLoad (writeResult st d r) ea r))

/-- STR: `x[d]` into the word at the effective address (R211). -/
def execStr (d s : RegIdx) (imm6 : BitVec 6) (st : State) : Result :=
  .next (advance (memWrite st (effAddr st s imm6) (readReg st d)))

end Sys2Proof.Machine
end

