-- ==== Sys2Proof/Machine/Logical.lean ====
section
/-! DEFINITION. The logical class, opcode 5 (spec/41_alu.md section 3). -/

namespace Sys2Proof.Machine

/-- AND (R140). -/
def execAnd (d s t : RegIdx) (st : State) : Result :=
  .next (finishResult st d (readReg st s &&& readReg st t))

/-- NOT (R141). -/
def execNot (d s : RegIdx) (st : State) : Result :=
  .next (finishResult st d (~~~(readReg st s)))

/-- OR (R142). -/
def execOr (d s t : RegIdx) (st : State) : Result :=
  .next (finishResult st d (readReg st s ||| readReg st t))

/-- XOR (R143). -/
def execXor (d s t : RegIdx) (st : State) : Result :=
  .next (finishResult st d (readReg st s ^^^ readReg st t))

/-- ANDI: the conjunction with `aimm` (R144, R73). -/
def execAndi (d s : RegIdx) (imm6 : BitVec 6) (st : State) : Result :=
  .next (finishResult st d (readReg st s &&& aluImm st.params.aluImmWidth imm6))

end Sys2Proof.Machine
end

