-- ==== Sys2Proof/Machine/Shift.lean ====
section
/-! DEFINITION. The shift and modulo class, opcode 10 (spec/41_alu.md section 4). -/

namespace Sys2Proof.Machine

/-- SLL (R145, R149). -/
def execSll (d s : RegIdx) (u4 : BitVec 4) (st : State) : Result :=
  .next (finishResult st d (shiftLeft (readReg st s) u4))

/-- SRA (R146, R149). -/
def execSra (d s : RegIdx) (u4 : BitVec 4) (st : State) : Result :=
  .next (finishResult st d (shiftRightArith (readReg st s) u4))

/-- SRL (R147, R149). -/
def execSrl (d s : RegIdx) (u4 : BitVec 4) (st : State) : Result :=
  .next (finishResult st d (shiftRightLogic (readReg st s) u4))

/-- MOD: `Rem`, 0 for a zero divisor (R148, R136). -/
def execMod (d s t : RegIdx) (st : State) : Result :=
  .next (finishResult st d (rem st.params.divSignedness (readReg st s) (readReg st t)))

end Sys2Proof.Machine
end

