-- ==== Sys2Proof/Machine/Trap.lean ====
section
/-! DEFINITION. Trap, return from trap and the unassigned opcodes (spec/46_trap_rti_undefined.md). -/

namespace Sys2Proof.Machine

/-- TRAP: trap entry, in either mode (R220, R243). -/
def execTrap (u8 : Byte) (st : State) : Result :=
  .next (enterTrap st u8)

/-- RTI: trap return, in either mode (R221, R244). -/
def execRti (st : State) : Result :=
  .next (returnFromTrap st)

/-- Opcode 3, unassigned: only `pc + 1` (R222). -/
def execUndefOp3 (st : State) : Result :=
  .next (advance st)

/-- Opcode 11, unassigned: only `pc + 1` (R222). -/
def execUndefOp11 (st : State) : Result :=
  .next (advance st)

/-- Opcode 14, unassigned: only `pc + 1` (R222). -/
def execUndefOp14 (st : State) : Result :=
  .next (advance st)

end Sys2Proof.Machine
end

