-- ==== Sys2Proof/Machine/Dispatch.lean ====
section
/-! DEFINITION. The dispatch: one arm per constructor of Instr (spec/40_datapath.md R102). -/

namespace Sys2Proof.Machine

def exec (i : Instr) (s : State) : Host.Outcome State Fault Refusal :=
  match i with
  | .nop => Sys2Proof.Machine.execNop s
  | .brp imm9 => Sys2Proof.Machine.execBrp imm9 s
  | .brz imm9 => Sys2Proof.Machine.execBrz imm9 s
  | .brzp imm9 => Sys2Proof.Machine.execBrzp imm9 s
  | .brn imm9 => Sys2Proof.Machine.execBrn imm9 s
  | .brnp imm9 => Sys2Proof.Machine.execBrnp imm9 s
  | .brnz imm9 => Sys2Proof.Machine.execBrnz imm9 s
  | .brnzp imm9 => Sys2Proof.Machine.execBrnzp imm9 s
  | .add d b t => Sys2Proof.Machine.execAdd d b t s
  | .mul d b t => Sys2Proof.Machine.execMul d b t s
  | .sub d b t => Sys2Proof.Machine.execSub d b t s
  | .div d b t => Sys2Proof.Machine.execDiv d b t s
  | .addi d b imm6 => Sys2Proof.Machine.execAddi d b imm6 s
  | .cmp d t => Sys2Proof.Machine.execCmp d t s
  | .cmpu d t => Sys2Proof.Machine.execCmpu d t s
  | .cmpi d imm6 => Sys2Proof.Machine.execCmpi d imm6 s
  | .cmpiu d imm6 => Sys2Proof.Machine.execCmpiu d imm6 s
  | .jsrr r imm6 => Sys2Proof.Machine.execJsrr r imm6 s
  | .jsr imm11 => Sys2Proof.Machine.execJsr imm11 s
  | .and d b t => Sys2Proof.Machine.execAnd d b t s
  | .not d b => Sys2Proof.Machine.execNot d b s
  | .or d b t => Sys2Proof.Machine.execOr d b t s
  | .xor d b t => Sys2Proof.Machine.execXor d b t s
  | .andi d b imm6 => Sys2Proof.Machine.execAndi d b imm6 s
  | .ldr d b imm6 => Sys2Proof.Machine.execLdr d b imm6 s
  | .str d b imm6 => Sys2Proof.Machine.execStr d b imm6 s
  | .rti => Sys2Proof.Machine.execRti s
  | .const d imm9 => Sys2Proof.Machine.execConst d imm9 s
  | .sll d b u4 => Sys2Proof.Machine.execSll d b u4 s
  | .sra d b u4 => Sys2Proof.Machine.execSra d b u4 s
  | .srl d b u4 => Sys2Proof.Machine.execSrl d b u4 s
  | .mod d b t => Sys2Proof.Machine.execMod d b t s
  | .jmpr r imm6 => Sys2Proof.Machine.execJmpr r imm6 s
  | .jmp imm11 => Sys2Proof.Machine.execJmp imm11 s
  | .hiconst d u8 => Sys2Proof.Machine.execHiconst d u8 s
  | .trap u8 => Sys2Proof.Machine.execTrap u8 s
  | .undefOp3 => Sys2Proof.Machine.execUndefOp3 s
  | .undefOp11 => Sys2Proof.Machine.execUndefOp11 s
  | .undefOp14 => Sys2Proof.Machine.execUndefOp14 s

end Sys2Proof.Machine
end

