-- ==== Sys2Proof/Machine/Cycle.lean ====
section
/-! DEFINITION. One call of the cycle driver (spec/40_datapath.md R100, R101). -/

namespace Sys2Proof.Machine

/-- One step: a halted core stays as it is; a core at the sentinel halts before any fetch; otherwise the word at `pc` is
fetched, its record emitted with the old snapshot, the snapshot cleared, and its one handler run (R100, R101, R102). -/
def cycle (s : State) : Result :=
  match s.run with
  | .halted => .next s
  | .running =>
    if s.pc = haltAddr then .next (halt s)
    else exec (decode (fetch s)) (beforeHandler s)

/-- Place a word in memory, as the loader does before the first step (R64, R263, log 4). -/
def placeWord (s : State) (a w : Word) : State := { s with mem := writeWord s.mem a w }

end Sys2Proof.Machine
end

