-- ==== Sys2Proof/Machine/Step.lean ====
section
/-! DEFINITION. The step function, and where the next instruction is fetched from. -/

namespace Sys2Proof.Machine

/-- One step of the core (spec/40_datapath.md R100). -/
def step (s : State) : Host.Outcome State Fault Refusal := cycle s

/-- The state with the instruction word placed at `pc`, where a running core not at the sentinel fetches next
(spec/40_datapath.md R100, R124, log 4). -/
def State.withFetchWord (s : State) (nbits w : Nat) : State :=
  placeWord s s.pc (BitVec.ofNat 16 (w % 2 ^ nbits))

end Sys2Proof.Machine
end

