-- ==== Sys2Proof/Machine/Datapath.lean ====
section
/-! DEFINITION. The same machine by datapath element (spec/40_datapath.md sections 3 to 7): the register ports, the ALU,
the register-write and next-pc multiplexers, the memory control and the snapshot multiplexer. "Where a table and an
instruction rule could be read differently the instruction rule governs": the step runs the instruction rules
(Dispatch.lean), and a statement says that these tables agree with them. -/

namespace Sys2Proof.Machine

/-- The functions of the ALU (R115). -/
inductive AluFn where
  | add | sub | mul | div | mod | and | or | xor | not | sll | sra | srl
  | compareSigned | compareUnsigned | passB | highByte
  deriving DecidableEq, Repr

/-- The B-operand multiplexer (R115): nothing, read port B, or an assembled immediate. -/
inductive BSource where
  | unused
  | portB
  | immediate (v : Word)
  deriving DecidableEq, Repr

/-- The register-write data multiplexer (R116), or no register write. -/
inductive RegSource where
  | noWrite
  | alu
  | dataPort
  | link
  deriving DecidableEq, Repr

/-- What the flag deriver is given (R106), if anything. -/
inductive FlagSource where
  | noWrite
  | regIn
  | alu
  deriving DecidableEq, Repr

/-- The use of the data memory ports (R124). -/
inductive MemUse where
  | idle
  | load
  | store
  deriving DecidableEq, Repr

/-- The next-pc multiplexer (R120). -/
inductive PcSource where
  | next
  | branch (cond : BitVec 3) (imm9 : BitVec 9)
  | relative (imm11 : BitVec 11)
  | alu
  | trapPage (u8 : Byte)
  | portA
  deriving DecidableEq, Repr

/-- The control lines of one instruction. -/
structure Control where
  /-- the address of read port A, if used (R110) -/
  portA : Option RegIdx
  /-- the address of read port B, if used (R110) -/
  portB : Option RegIdx
  /-- port A sees `pc + 1` for register 7 (R112) -/
  bypassLink : Bool
  bSource : BSource
  fn : AluFn
  /-- the write port's address -/
  dest : RegIdx
  regSource : RegSource
  flagSource : FlagSource
  memUse : MemUse
  /-- TRAP's write of status[3], carried by no snapshot field (R127) -/
  setsPriv : Bool
  /-- RTI's clear of status, carried by no snapshot field (R127) -/
  clearsStatus : Bool
  pcSource : PcSource
  deriving DecidableEq, Repr

/-- Every unit idle, `pc + 1`. -/
def Control.idle : Control :=
  { portA := none, portB := none, bypassLink := false, bSource := .unused, fn := .add, dest := 0,
    regSource := .noWrite, flagSource := .noWrite, memUse := .idle, setsPriv := false,
    clearsStatus := false, pcSource := .next }

/-- Both ports, an ALU function, the result to `x[d]`. -/
def twoPortControl (fn : AluFn) (d s t : RegIdx) : Control :=
  { Control.idle with
    portA := some s, portB := some t, bSource := .portB, fn := fn, dest := d,
    regSource := .alu, flagSource := .regIn }

/-- Port A and an immediate, the result to `x[d]`. -/
def immediateControl (fn : AluFn) (d s : RegIdx) (v : Word) : Control :=
  { Control.idle with
    portA := some s, bSource := .immediate v, fn := fn, dest := d,
    regSource := .alu, flagSource := .regIn }

/-- A branch (R120). -/
def branchControl (cond : BitVec 3) (imm9 : BitVec 9) : Control :=
  { Control.idle with pcSource := .branch cond imm9 }

/-- A compare: the ALU's outcome goes to the flag deriver only (R115). -/
def compareControl (fn : AluFn) (d : RegIdx) (portB : Option RegIdx) (b : BSource) : Control :=
  { Control.idle with portA := some d, portB := portB, bSource := b, fn := fn, flagSource := .alu }

/-- The control lines of an instruction: the rows of R106, R110, R115, R116, R120, R124 and R126. -/
def controlOf (p : Params) (i : Instr) : Control :=
  match i with
  | .nop => branchControl 0 0
  | .brp imm9 => branchControl 1 imm9
  | .brz imm9 => branchControl 2 imm9
  | .brzp imm9 => branchControl 3 imm9
  | .brn imm9 => branchControl 4 imm9
  | .brnp imm9 => branchControl 5 imm9
  | .brnz imm9 => branchControl 6 imm9
  | .brnzp imm9 => branchControl 7 imm9
  | .add d s t => twoPortControl .add d s t
  | .mul d s t => twoPortControl .mul d s t
  | .sub d s t => twoPortControl .sub d s t
  | .div d s t => twoPortControl .div d s t
  | .addi d s imm6 => immediateControl .add d s (aluImm p.aluImmWidth imm6)
  | .cmp d t => compareControl .compareSigned d (some t) .portB
  | .cmpu d t => compareControl .compareUnsigned d (some t) .portB
  | .cmpi d imm6 => compareControl .compareSigned d none (.immediate (sext imm6))
  | .cmpiu d imm6 => compareControl .compareUnsigned d none (.immediate (zext imm6))
  | .jsrr s imm6 =>
    { Control.idle with
      portA := some s, bypassLink := true, bSource := .immediate (sext imm6), dest := linkReg,
      regSource := .link, flagSource := .regIn, pcSource := .alu }
  | .jsr imm11 =>
    { Control.idle with
      dest := linkReg, regSource := .link, flagSource := .regIn, pcSource := .relative imm11 }
  | .and d s t => twoPortControl .and d s t
  | .not d s => { twoPortControl .not d s 0 with portB := none, bSource := .unused }
  | .or d s t => twoPortControl .or d s t
  | .xor d s t => twoPortControl .xor d s t
  | .andi d s imm6 => immediateControl .and d s (aluImm p.aluImmWidth imm6)
  | .ldr d s imm6 =>
    { immediateControl .add d s (sext imm6) with regSource := .dataPort, memUse := .load }
  | .str d s imm6 =>
    { Control.idle with
      portA := some s, portB := some d, bSource := .immediate (sext imm6), memUse := .store }
  | .rti => { Control.idle with portA := some linkReg, clearsStatus := true, pcSource := .portA }
  | .const d imm9 =>
    { Control.idle with
      bSource := .immediate (sext imm9), fn := .passB, dest := d, regSource := .alu,
      flagSource := .regIn }
  | .sll d s u4 => immediateControl .sll d s (zext u4)
  | .sra d s u4 => immediateControl .sra d s (zext u4)
  | .srl d s u4 => immediateControl .srl d s (zext u4)
  | .mod d s t => twoPortControl .mod d s t
  | .jmpr s imm6 =>
    { Control.idle with portA := some s, bSource := .immediate (sext imm6), pcSource := .alu }
  | .jmp imm11 => { Control.idle with pcSource := .relative imm11 }
  | .hiconst d u8 => immediateControl .highByte d d (zext u8)
  | .trap u8 =>
    { Control.idle with
      dest := linkReg, regSource := .link,
      flagSource := if p.trapSetsFlags then .regIn else .noWrite,
      setsPriv := true, pcSource := .trapPage u8 }
  | .undefOp3 => Control.idle
  | .undefOp11 => Control.idle
  | .undefOp14 => Control.idle

/-- The ALU (R115). -/
def alu (sg : Signedness) (fn : AluFn) (a b : Word) : Word :=
  match fn with
  | .add => a + b
  | .sub => a - b
  | .mul => product a b
  | .div => quot sg a b
  | .mod => rem sg a b
  | .and => a &&& b
  | .or => a ||| b
  | .xor => a ^^^ b
  | .not => ~~~a
  | .sll => a <<< b.toNat
  | .sra => a.sshiftRight b.toNat
  | .srl => a >>> b.toNat
  | .compareSigned => Sys2Proof.Machine.compareSigned a b
  | .compareUnsigned => Sys2Proof.Machine.compareUnsigned a b
  | .passB => b
  | .highByte => (a &&& 0x00FF) ||| (b <<< 8)

/-- Read port A, with the bypass of R112. -/
def portAValue (c : Control) (s : State) : Word :=
  match c.portA with
  | none => 0
  | some r => if c.bypassLink ∧ r = linkReg then succWord s.pc else readReg s r

/-- Read port B (R110). -/
def portBValue (c : Control) (s : State) : Word :=
  match c.portB with
  | none => 0
  | some r => readReg s r

/-- The B operand of the ALU (R115). -/
def bOperand (c : Control) (s : State) : Word :=
  match c.bSource with
  | .unused => 0
  | .portB => portBValue c s
  | .immediate v => v

/-- The ALU's output. -/
def aluValue (c : Control) (s : State) : Word :=
  alu s.params.divSignedness c.fn (portAValue c s) (bOperand c s)

/-- The register-write data (R116). -/
def regInValue (c : Control) (s : State) : Word :=
  match c.regSource with
  | .noWrite => 0
  | .alu => aluValue c s
  | .dataPort => memRead s (aluValue c s)
  | .link => succWord s.pc

/-- The flag code, 0 where the flag deriver is not used (R104, R126). -/
def flagOutValue (c : Control) (s : State) : BitVec 3 :=
  match c.flagSource with
  | .noWrite => 0
  | .regIn => flagCode (regInValue c s)
  | .alu => flagCode (aluValue c s)

/-- The data on the memory lines (R126): a load shows the word it read, a store the word it writes. -/
def memValue (c : Control) (s : State) : Word :=
  match c.memUse with
  | .idle => 0
  | .load => memRead s (aluValue c s)
  | .store => portBValue c s

/-- The snapshot multiplexer (R126). -/
def snapshot (c : Control) (s : State) : Signals :=
  { regWE := c.regSource != .noWrite
    regSel := if c.regSource = .noWrite then 0 else c.dest
    regIn := regInValue c s
    flagWE := c.flagSource != .noWrite
    flagOut := flagOutValue c s
    memWE := c.memUse == .store
    memAddr := if c.memUse = .idle then 0 else aluValue c s
    memVal := memValue c s }

/-- The next-pc multiplexer (R120). -/
def nextPc (c : Control) (s : State) : Word :=
  match c.pcSource with
  | .next => succWord s.pc
  | .branch cond imm9 => if taken cond s.status then relTarget s.pc (sext imm9) else succWord s.pc
  | .relative imm11 => relTarget s.pc (sext imm11)
  | .alu => aluValue c s
  | .trapPage u8 => vectorFrom trapBase u8
  | .portA => portAValue c s

/-- The write-back: the register, flag and memory ports are driven by the snapshot (R111, R124, R127), the mode by the two
lines no snapshot field carries. -/
def writeBack (c : Control) (g : Signals) (s : State) : State :=
  let flagged := if g.flagWE then withFlags s.status g.flagOut else s.status
  { s with
    pc := nextPc c s
    regs := if g.regWE then s.regs.set g.regSel.toNat g.regIn g.regSel.isLt else s.regs
    status := if c.clearsStatus then 0 else if c.setsPriv then withPriv flagged else flagged
    mem := if g.memWE then writeWord s.mem g.memAddr g.memVal else s.mem
    sig := g }

/-- One instruction by the datapath's tables. -/
def datapathExec (i : Instr) (s : State) : State :=
  let c := controlOf s.params i
  writeBack c (snapshot c s) s

end Sys2Proof.Machine
end

