-- ==== Sys2Proof/Machine/Reset.lean ====
section
/-! DEFINITION. The reset input and the memory-image input of the block (spec/00_scope.md R5,
spec/70_reset_and_hazards.md R260, R262). -/

namespace Sys2Proof.Machine

/-- The state reset leaves, for every value of the parameters and every image of the loader (R7, R33, R260). -/
def resetFrom (p : Params) (image : Word → Word) : State :=
  { State.reset with mem := imageMemory image, params := p }

/-- The reset input asserted at any time: every register-like element goes to its reset value, and memory stays
unless the loader supplies a new image (R262). The parameters stay, and the trace list starts again (log 5). -/
def applyReset (s : State) (image : Option (Word → Word)) : State :=
  { State.reset with
    mem := match image with
      | none => s.mem
      | some f => imageMemory f
    params := s.params }

end Sys2Proof.Machine
end

