-- ==== Sys2Proof/Safety.lean ====
section
/-! DEFINITION. What counts as a legal state and a safe run of the core, in the terms the statements use. -/

namespace Sys2Proof.Machine

/-- At most one bit is set: the value is 0 or a flag code (R29, R30). -/
def legalFlagCode (c : BitVec 3) : Bool := c == 0 || c == 1 || c == 2 || c == 4

/-- A legal status register: bits 15..4 zero, at most one of P, Z and N (R29). -/
def legalStatus (status : Word) : Bool :=
  status.extractLsb' 4 12 == 0 && legalFlagCode (flagField status)

/-- A record of an executed step: never the sentinel's (R57, R100), a legal flag output (R30). -/
def legalRecord (r : TraceRecord) : Bool := r.pc != haltAddr && legalFlagCode r.sig.flagOut

/-- A legal state: memory in canonical form (the model's choice, log 2), a legal status, a legal flag output (R30), a halted core
stands at the sentinel (R253, R264), and only legal records were put out (read from the model's trace list, log 3). -/
def State.legal (s : State) : Bool :=
  s.mem.wf && legalStatus s.status && legalFlagCode s.sig.flagOut
    && (s.run == .running || s.pc == haltAddr) && s.trace.all legalRecord

/-- The snapshot mirrors the write-back of the last executed step (R30, R111, R124, R127): each asserted port's
value stands where it was written. -/
def State.mirrored (s : State) : Prop :=
  (s.sig.regWE = true → readReg s s.sig.regSel = s.sig.regIn) ∧
  (s.sig.flagWE = true → flagField s.status = s.sig.flagOut) ∧
  (s.sig.memWE = true → memRead s s.sig.memAddr = s.sig.memVal)

/-- A run of `k` steps that neither faults nor refuses, from any state (R103, R240). -/
def safeRun (k : Nat) (s : State) : Prop := ∃ t, Host.Core.run Sys2Proof.core k s = .next t

/-- The two states differ in nothing but the privilege bit `status[3]` (R246). -/
def SameButMode (s t : State) : Prop :=
  t = { s with status := t.status } ∧ ∀ b, b ≠ 3 → t.status.getLsbD b = s.status.getLsbD b

/-- The store a step from this state makes, if any: its address and value (R51, R211). -/
def storeOf (s : State) : Option (Word × Word) :=
  if s.executes then
    match decode (fetch s) with
    | .str d r imm6 => some (effAddr s r imm6, readReg s d)
    | _ => none
  else none

/-- The value of the last store to `a` among the next `k` steps, if any made one (R59). -/
def lastStore (k : Nat) (s : State) (a : Word) : Option Word :=
  match k with
  | 0 => none
  | k + 1 =>
    match step s with
    | .next t =>
      match lastStore k t a, storeOf s with
      | some v, _ => some v
      | none, some (b, v) => if b = a then some v else none
      | none, none => none
    | .fault _ => none
    | .refused _ => none

/-- The records of the next `k` steps, newest first: one for each step that executes an instruction (R128). -/
def recordsOf (k : Nat) (s : State) : List TraceRecord :=
  match k with
  | 0 => []
  | k + 1 =>
    match step s with
    | .next t => recordsOf k t ++ (if s.executes then [traceRecord s] else [])
    | .fault _ => []
    | .refused _ => []

/-- The register an instruction's rule names as written, if any (R111). -/
def destReg (i : Instr) : Option RegIdx :=
  match i with
  | .nop => none
  | .brp _ => none
  | .brz _ => none
  | .brzp _ => none
  | .brn _ => none
  | .brnp _ => none
  | .brnz _ => none
  | .brnzp _ => none
  | .add d _ _ => some d
  | .mul d _ _ => some d
  | .sub d _ _ => some d
  | .div d _ _ => some d
  | .addi d _ _ => some d
  | .cmp _ _ => none
  | .cmpu _ _ => none
  | .cmpi _ _ => none
  | .cmpiu _ _ => none
  | .jsrr _ _ => some linkReg
  | .jsr _ => some linkReg
  | .and d _ _ => some d
  | .not d _ => some d
  | .or d _ _ => some d
  | .xor d _ _ => some d
  | .andi d _ _ => some d
  | .ldr d _ _ => some d
  | .str _ _ _ => none
  | .rti => none
  | .const d _ => some d
  | .sll d _ _ => some d
  | .sra d _ _ => some d
  | .srl d _ _ => some d
  | .mod d _ _ => some d
  | .jmpr _ _ => none
  | .jmp _ => none
  | .hiconst d _ => some d
  | .trap _ => some linkReg
  | .undefOp3 => none
  | .undefOp11 => none
  | .undefOp14 => none

/-- The instruction calls `SetFlags` (R106; TRAP only where `TRAP_SETS_FLAGS` holds). -/
def flagAffecting (p : Params) (i : Instr) : Bool :=
  match i with
  | .nop => false
  | .brp _ => false
  | .brz _ => false
  | .brzp _ => false
  | .brn _ => false
  | .brnp _ => false
  | .brnz _ => false
  | .brnzp _ => false
  | .add _ _ _ => true
  | .mul _ _ _ => true
  | .sub _ _ _ => true
  | .div _ _ _ => true
  | .addi _ _ _ => true
  | .cmp _ _ => true
  | .cmpu _ _ => true
  | .cmpi _ _ => true
  | .cmpiu _ _ => true
  | .jsrr _ _ => true
  | .jsr _ => true
  | .and _ _ _ => true
  | .not _ _ => true
  | .or _ _ _ => true
  | .xor _ _ _ => true
  | .andi _ _ _ => true
  | .ldr _ _ _ => true
  | .str _ _ _ => false
  | .rti => false
  | .const _ _ => true
  | .sll _ _ _ => true
  | .sra _ _ _ => true
  | .srl _ _ _ => true
  | .mod _ _ _ => true
  | .jmpr _ _ => false
  | .jmp _ => false
  | .hiconst _ _ => true
  | .trap _ => p.trapSetsFlags
  | .undefOp3 => false
  | .undefOp11 => false
  | .undefOp14 => false

/-- The opcode of the instruction's class (R77). -/
def opcodeOf (i : Instr) : Nat :=
  match i with
  | .nop => 0
  | .brp _ => 0
  | .brz _ => 0
  | .brzp _ => 0
  | .brn _ => 0
  | .brnp _ => 0
  | .brnz _ => 0
  | .brnzp _ => 0
  | .add _ _ _ => 1
  | .mul _ _ _ => 1
  | .sub _ _ _ => 1
  | .div _ _ _ => 1
  | .addi _ _ _ => 1
  | .cmp _ _ => 2
  | .cmpu _ _ => 2
  | .cmpi _ _ => 2
  | .cmpiu _ _ => 2
  | .undefOp3 => 3
  | .jsrr _ _ => 4
  | .jsr _ => 4
  | .and _ _ _ => 5
  | .not _ _ => 5
  | .or _ _ _ => 5
  | .xor _ _ _ => 5
  | .andi _ _ _ => 5
  | .ldr _ _ _ => 6
  | .str _ _ _ => 7
  | .rti => 8
  | .const _ _ => 9
  | .sll _ _ _ => 10
  | .sra _ _ _ => 10
  | .srl _ _ _ => 10
  | .mod _ _ _ => 10
  | .undefOp11 => 11
  | .jmpr _ _ => 12
  | .jmp _ => 12
  | .hiconst _ _ => 13
  | .undefOp14 => 14
  | .trap _ => 15

end Sys2Proof.Machine
end

