-- ==== Sys2Proof/Certificates/Slice0/Obligations.lean ====
section
/-! DEFINITION. The statements for the provers. The vocabulary first: what "an instruction does exactly this" means, read
through the model's reads of one register, one flag and one memory cell. `% 65536` is the reduction of
spec/00_scope.md R10. -/

namespace Sys2Proof.Machine

/-- Every cell of memory reads as before: every word's two halves (log 2). -/
def SameMemory (s t : State) : Prop := ∀ k, readByte t.mem k = readByte s.mem k

/-- Every register reads as before. -/
def SameRegisters (s t : State) : Prop := ∀ r, readReg t r = readReg s r

/-- The run state, the records put out and the parameters, which no instruction touches. -/
def SameRest (s t : State) : Prop := t.run = s.run ∧ t.trace = s.trace ∧ t.params = s.params

/-- N, Z and P hold exactly when `neg`, `zero` and `pos` do, and every other status bit is as before. -/
def FlagsAre (s t : State) (neg zero pos : Prop) : Prop :=
  (flagN t.status = true ↔ neg) ∧ (flagZ t.status = true ↔ zero) ∧ (flagP t.status = true ↔ pos) ∧
    ∀ b, 3 ≤ b → t.status.getLsbD b = s.status.getLsbD b

/-- The step from `s` to `t` writes `v` to `x[d]` and to no other register, sets the flags from `v`, asserts the snapshot's
register and flag fields over `base`, goes to `target`, and changes nothing else. -/
structure ResultEffect (s t : State) (d : RegIdx) (v : Word) (base : Signals) (target : Word) : Prop where
  registers : ∀ r, readReg t r = if r = d then v else readReg s r
  flags : FlagsAre s t (v.toInt < 0) (v = 0) (0 < v.toInt)
  signals : t.sig =
    { base with regWE := true, regSel := d, regIn := v, flagWE := true, flagOut := flagField t.status }
  nextPc : t.pc = target
  memory : SameMemory s t
  rest : SameRest s t

/-- The step from `s` to `t` sets the flags by a comparison, asserts the snapshot's flag fields, goes to `pc + 1`, and changes
nothing else. -/
structure CompareEffect (s t : State) (less equal greater : Prop) : Prop where
  registers : SameRegisters s t
  flags : FlagsAre s t less equal greater
  signals : t.sig = { s.sig with flagWE := true, flagOut := flagField t.status }
  nextPc : t.pc = s.pc + 1
  memory : SameMemory s t
  rest : SameRest s t

/-- The step from `s` to `t` changes `pc`, to `target` modulo 65536, and nothing else. -/
structure TransferEffect (s t : State) (target : Int) : Prop where
  nextPc : (t.pc.toNat : Int) = target % 65536
  others : t = { s with pc := t.pc }

/-- The value of ADDI's and ANDI's immediate, insn[4:0] under the mode bit 1, by `ALU_IMM_WIDTH` (R73). -/
def immediateValue (p : Params) (i5 : BitVec 5) : Int :=
  match p.aluImmWidth with
  | .six => i5.toNat - 32
  | .five => i5.toInt

end Sys2Proof.Machine

open Sys2Proof Sys2Proof.Machine

/-! ## Encoding -/

/-- The decoder reads every well-formed instruction back from its encoding, every operand at every value. -/
def Obligations.DecodeOfEncodeIsTheInstruction : Prop :=
  ∀ i : Instr, i.wellFormed = true → decode (encode i) = i

/-- Every word decodes to a well-formed instruction, and encoding it again gives the word with the bits the instruction ignores
cleared. Which bits those are is R82 (the spec's decision D14); that the encoder writes them as 0 is the model's own choice
(log 7, DESIGN CHOICE), since the spec has no encoder. -/
def Obligations.EncodeOfDecodeClearsIgnoredBits : Prop :=
  ∀ w : Word, (decode w).wellFormed = true ∧ encode (decode w) = w &&& ~~~(decode w).ignoredBits

/-- Flipping any of the bits an instruction ignores gives the same instruction (R82, the spec's decision D14). -/
def Obligations.IgnoredBitsNeverMatter : Prop :=
  ∀ w flips : Word, flips &&& ~~~(decode w).ignoredBits = 0 → decode (w ^^^ flips) = decode w

/-- The rows of the opcode table partition the words, and the decoder follows them (R84, which the spec marks derived). -/
def Obligations.EveryWordSelectsOneTableRow : Prop :=
  ∀ w : Word, ∃ row ∈ opcodeTable, row.selects w = true ∧ row.mnemonic = (decode w).mnemonic ∧
    ∀ other ∈ opcodeTable, other.selects w = true → other = row

/-- Words the spec writes out, one of each family, decode to the instructions it gives for them. -/
def Obligations.WordsWrittenOutDecodeAsTheSpecSays : Prop :=
  decode 0x0202 = .brp 2 ∧ decode 0x1642 = .add 3 1 2 ∧ decode 0x127F = .addi 1 1 0b111111 ∧
  decode 0x2202 = .cmp 1 2 ∧ decode 0x23BF = .cmpiu 1 63 ∧ decode 0x4810 = .jsr 16 ∧
  decode 0x41C2 = .jsrr 7 2 ∧ decode 0x565A = .xor 3 1 2 ∧ decode 0x66BF = .ldr 3 2 0b111111 ∧
  decode 0x7685 = .str 3 2 5 ∧ decode 0x8000 = .rti ∧ decode 0x9005 = .const 0 5 ∧
  decode 0xA672 = .mod 3 1 2 ∧ decode 0xB123 = .undefOp11 ∧ decode 0xC17E = .jmpr 5 0b111110 ∧
  decode 0xD9AB = .hiconst 4 0xAB ∧ decode 0xF0AB = .trap 0xAB

/-- The class of a word's instruction is the class of its four top bits (R77). -/
def Obligations.OpcodeAloneSelectsTheClass : Prop :=
  ∀ w : Word, opcodeOf (decode w) = w.toNat / 4096

/-! ## Operands and flags -/

/-- `sext_N` and `zext_N`, bit by bit, and the shift form of `sext_N` (R9), for every N the spec names. -/
def Obligations.FieldsExtendAsTheSpecSays : Prop :=
  ∀ n ∈ [4, 5, 6, 9, 11],
    (∀ v : BitVec n, ∀ b < 16,
      (sext v).getLsbD b = (if b < n then v.getLsbD b else v.getLsbD (n - 1)) ∧
      (zext v).getLsbD b = (if b < n then v.getLsbD b else false)) ∧
    ∀ w : Word, sext (w.extractLsb' 0 n) = (w <<< (16 - n)).sshiftRight (16 - n)

/-- The ALU immediate of every ADDI and ANDI word: its value and range at either width, and that the two readings agree exactly
when insn[4] is 1. "signed(insn[4:0]) - 32" of R73 is read with insn[4:0] as the unsigned field it is (log 12). -/
def Obligations.AluImmediateRangeByWidth : Prop :=
  ∀ i5 : BitVec 5,
    (aluImm .six (0b1#1 ++ i5)).toInt = i5.toNat - 32 ∧
    -32 ≤ (aluImm .six (0b1#1 ++ i5)).toInt ∧ (aluImm .six (0b1#1 ++ i5)).toInt ≤ -1 ∧
    (aluImm .five (0b1#1 ++ i5)).toInt = i5.toInt ∧
    -16 ≤ (aluImm .five (0b1#1 ++ i5)).toInt ∧ (aluImm .five (0b1#1 ++ i5)).toInt ≤ 15 ∧
    (aluImm .six (0b1#1 ++ i5) = aluImm .five (0b1#1 ++ i5) ↔ i5.getLsbD 4 = true)

/-- `SetFlags(v)`: the code by the sign of `v` in status[2:0] and in the snapshot, bits 15..3 kept, nothing else changed (R104). -/
def Obligations.SetFlagsWritesTheSignOfTheValue : Prop :=
  ∀ (s : State) (v : Word),
    let code : BitVec 3 := if v.toInt < 0 then 4 else if v = 0x0000 then 2 else 1
    flagField (setFlags s v).status = code ∧
    (∀ b, 3 ≤ b → (setFlags s v).status.getLsbD b = s.status.getLsbD b) ∧
    (setFlags s v).sig = { s.sig with flagWE := true, flagOut := code } ∧
    setFlags s v = { s with status := (setFlags s v).status, sig := (setFlags s v).sig }

/-- The condition table (R121), and its bitwise form for the conditions 1 to 6, which the spec marks derived. -/
def Obligations.TakenFollowsTheConditionTable : Prop :=
  ∀ status : Word,
    let p := status.getLsbD 0
    let z := status.getLsbD 1
    let n := status.getLsbD 2
    taken 0 status = false ∧ taken 1 status = p ∧ taken 2 status = z ∧ taken 3 status = (z || p) ∧
    taken 4 status = n ∧ taken 5 status = (n || p) ∧ taken 6 status = (n || z) ∧ taken 7 status = true ∧
    ∀ cond : BitVec 3, cond ≠ 0 → cond ≠ 7 → taken cond status = (cond &&& status.extractLsb' 0 3 != 0)

/-! ## Instructions: encoding, completion, effect and frame -/

/-- ADD, MUL and SUB (R130, R131, R132): the integer result modulo 65536, its flags, `pc + 1`, nothing else. -/
def Obligations.AddMulSubComputeModulo65536 : Prop :=
  ∀ (d r q : RegIdx) (s : State),
    (decode (0b0001#4 ++ d ++ r ++ 0b000#3 ++ q) = .add d r q ∧
      ∃ t, exec (.add d r q) s = .next t ∧
        ResultEffect s t d (trunc16 ((readReg s r).toInt + (readReg s q).toInt)) s.sig (s.pc + 1)) ∧
    (decode (0b0001#4 ++ d ++ r ++ 0b001#3 ++ q) = .mul d r q ∧
      ∃ t, exec (.mul d r q) s = .next t ∧
        ResultEffect s t d (trunc16 ((readReg s r).toInt * (readReg s q).toInt)) s.sig (s.pc + 1)) ∧
    (decode (0b0001#4 ++ d ++ r ++ 0b010#3 ++ q) = .sub d r q ∧
      ∃ t, exec (.sub d r q) s = .next t ∧
        ResultEffect s t d (trunc16 ((readReg s r).toInt - (readReg s q).toInt)) s.sig (s.pc + 1))

/-- DIV and MOD (R133, R148, R136), at either `DIV_SIGNEDNESS`: zero for a zero divisor, else the quotient rounded toward zero
and the remainder with the dividend's sign, or the unsigned ones. -/
def Obligations.DivModComputeQuotientAndRemainder : Prop :=
  ∀ (d r q : RegIdx) (z : BitVec 1) (s : State),
    let a := readReg s r
    let b := readReg s q
    (decode (0b0001#4 ++ d ++ r ++ 0b011#3 ++ q) = .div d r q ∧
      ∃ t v, exec (.div d r q) s = .next t ∧ ResultEffect s t d v s.sig (s.pc + 1) ∧
        (b = 0 → v = 0) ∧
        (b ≠ 0 → s.params.divSignedness = .signed → v = trunc16 (a.toInt.tdiv b.toInt)) ∧
        (b ≠ 0 → s.params.divSignedness = .unsigned → v.toNat = a.toNat / b.toNat)) ∧
    (decode (0b1010#4 ++ d ++ r ++ 0b11#2 ++ z ++ q) = .mod d r q ∧
      ∃ t v, exec (.mod d r q) s = .next t ∧ ResultEffect s t d v s.sig (s.pc + 1) ∧
        (b = 0 → v = 0) ∧
        (b ≠ 0 → s.params.divSignedness = .signed → v.toInt = a.toInt.tmod b.toInt) ∧
        (b ≠ 0 → s.params.divSignedness = .unsigned → v.toNat = a.toNat % b.toNat))

/-- The law behind R136: quotient times divisor plus remainder is the dividend, the remainder is smaller than the divisor and has
the dividend's sign, and 0x8000 / 0xFFFF is the one signed quotient that overflows. -/
def Obligations.QuotientTimesDivisorPlusRemainder : Prop :=
  ∀ a b : Word, b ≠ 0 →
    (∀ sg, quot sg a b * b + rem sg a b = a) ∧
    ((rem .signed a b).toInt.natAbs < b.toInt.natAbs ∧
      ((rem .signed a b).toInt = 0 ∨ ((rem .signed a b).toInt < 0 ↔ a.toInt < 0))) ∧
    (if a = 0x8000 ∧ b = 0xFFFF then quot .signed a b = 0x8000 ∧ rem .signed a b = 0
      else (quot .signed a b).toInt = a.toInt.tdiv b.toInt) ∧
    ((rem .unsigned a b).toNat < b.toNat ∧ (quot .unsigned a b).toNat = a.toNat / b.toNat)

/-- ADDI and ANDI (R134, R144), at either `ALU_IMM_WIDTH`, for every word whose mode bit is 1. -/
def Obligations.AddiAndiUseTheAluImmediate : Prop :=
  ∀ (d r : RegIdx) (i5 : BitVec 5) (s : State),
    (decode (0b0001#4 ++ d ++ r ++ 0b1#1 ++ i5) = .addi d r (0b1#1 ++ i5) ∧
      ∃ t, exec (.addi d r (0b1#1 ++ i5)) s = .next t ∧
        ResultEffect s t d (trunc16 ((readReg s r).toInt + immediateValue s.params i5)) s.sig (s.pc + 1)) ∧
    (decode (0b0101#4 ++ d ++ r ++ 0b1#1 ++ i5) = .andi d r (0b1#1 ++ i5) ∧
      ∃ t, exec (.andi d r (0b1#1 ++ i5)) s = .next t ∧
        ResultEffect s t d (readReg s r &&& trunc16 (immediateValue s.params i5)) s.sig (s.pc + 1))

/-- AND, NOT, OR and XOR (R140, R141, R142, R143), bit by bit; NOT whatever its `t` bits hold. -/
def Obligations.AndNotOrXorWorkBitByBit : Prop :=
  ∀ (d r q : RegIdx) (s : State),
    let a := readReg s r
    let b := readReg s q
    (decode (0b0101#4 ++ d ++ r ++ 0b000#3 ++ q) = .and d r q ∧
      ∃ t v, exec (.and d r q) s = .next t ∧ ResultEffect s t d v s.sig (s.pc + 1) ∧
        ∀ j < 16, v.getLsbD j = (a.getLsbD j && b.getLsbD j)) ∧
    (decode (0b0101#4 ++ d ++ r ++ 0b001#3 ++ q) = .not d r ∧
      ∃ t v, exec (.not d r) s = .next t ∧ ResultEffect s t d v s.sig (s.pc + 1) ∧
        ∀ j < 16, v.getLsbD j = !a.getLsbD j) ∧
    (decode (0b0101#4 ++ d ++ r ++ 0b010#3 ++ q) = .or d r q ∧
      ∃ t v, exec (.or d r q) s = .next t ∧ ResultEffect s t d v s.sig (s.pc + 1) ∧
        ∀ j < 16, v.getLsbD j = (a.getLsbD j || b.getLsbD j)) ∧
    (decode (0b0101#4 ++ d ++ r ++ 0b011#3 ++ q) = .xor d r q ∧
      ∃ t v, exec (.xor d r q) s = .next t ∧ ResultEffect s t d v s.sig (s.pc + 1) ∧
        ∀ j < 16, v.getLsbD j = (a.getLsbD j ^^ b.getLsbD j))

/-- SLL, SRA and SRL (R145, R146, R147, R149), bit by bit: zeros enter at the low end, copies of bit 15 or zeros at the high
end, and a shift by 0 leaves the operand. -/
def Obligations.ShiftsMoveBitsAndFillTheRest : Prop :=
  ∀ (d r : RegIdx) (u4 : BitVec 4) (s : State),
    let a := readReg s r
    let k := u4.toNat
    (decode (0b1010#4 ++ d ++ r ++ 0b00#2 ++ u4) = .sll d r u4 ∧
      ∃ t v, exec (.sll d r u4) s = .next t ∧ ResultEffect s t d v s.sig (s.pc + 1) ∧
        ∀ j < 16, v.getLsbD j = if j < k then false else a.getLsbD (j - k)) ∧
    (decode (0b1010#4 ++ d ++ r ++ 0b01#2 ++ u4) = .sra d r u4 ∧
      ∃ t v, exec (.sra d r u4) s = .next t ∧ ResultEffect s t d v s.sig (s.pc + 1) ∧
        ∀ j < 16, v.getLsbD j = if j + k < 16 then a.getLsbD (j + k) else a.getLsbD 15) ∧
    (decode (0b1010#4 ++ d ++ r ++ 0b10#2 ++ u4) = .srl d r u4 ∧
      ∃ t v, exec (.srl d r u4) s = .next t ∧ ResultEffect s t d v s.sig (s.pc + 1) ∧
        ∀ j < 16, v.getLsbD j = if j + k < 16 then a.getLsbD (j + k) else false)

/-- CMP, CMPU, CMPI and CMPIU (R170 to R174): the flags by the exact order of the operands (the spec's decision D10), signed or
unsigned, and no register written; whatever the ignored bits hold (D14). -/
def Obligations.ComparesSetFlagsByTheExactOrder : Prop :=
  ∀ (d q : RegIdx) (imm6 : BitVec 6) (x : BitVec 4) (y : BitVec 1) (s : State),
    let a := readReg s d
    let b := readReg s q
    (decode (0b0010#4 ++ d ++ 0b00#2 ++ x ++ q) = .cmp d q ∧
      ∃ t, exec (.cmp d q) s = .next t ∧
        CompareEffect s t (a.toInt < b.toInt) (a.toInt = b.toInt) (b.toInt < a.toInt)) ∧
    (decode (0b0010#4 ++ d ++ 0b01#2 ++ x ++ q) = .cmpu d q ∧
      ∃ t, exec (.cmpu d q) s = .next t ∧
        CompareEffect s t (a.toNat < b.toNat) (a.toNat = b.toNat) (b.toNat < a.toNat)) ∧
    (decode (0b0010#4 ++ d ++ 0b10#2 ++ y ++ imm6) = .cmpi d imm6 ∧
      ∃ t, exec (.cmpi d imm6) s = .next t ∧
        CompareEffect s t (a.toInt < imm6.toInt) (a.toInt = imm6.toInt) (imm6.toInt < a.toInt)) ∧
    (decode (0b0010#4 ++ d ++ 0b11#2 ++ y ++ imm6) = .cmpiu d imm6 ∧
      ∃ t, exec (.cmpiu d imm6) s = .next t ∧
        CompareEffect s t (a.toNat < imm6.toNat) (a.toNat = imm6.toNat) (imm6.toNat < a.toNat))

/-- CONST and HICONST (R180, R181): the signed 9-bit value; the byte over the register's low byte. That they set flags is the
spec's decision D7. -/
def Obligations.ConstAndHiconstBuildConstants : Prop :=
  ∀ (d : RegIdx) (imm9 : BitVec 9) (u8 : Byte) (x : BitVec 1) (s : State),
    (decode (0b1001#4 ++ d ++ imm9) = .const d imm9 ∧
      ∃ t, exec (.const d imm9) s = .next t ∧
        ResultEffect s t d (trunc16 imm9.toInt) s.sig (s.pc + 1)) ∧
    (decode (0b1101#4 ++ d ++ x ++ u8) = .hiconst d u8 ∧
      ∃ t, exec (.hiconst d u8) s = .next t ∧
        ResultEffect s t d (u8 ++ (readReg s d).extractLsb' 0 8) s.sig (s.pc + 1))

/-- NOP and the seven branches (R190 to R197): each reads its flags alone and changes `pc` alone. -/
def Obligations.BranchesFollowTheFlags : Prop :=
  ∀ (imm9 : BitVec 9) (s : State),
    let next : Int := s.pc.toNat + 1
    let far : Int := s.pc.toNat + 1 + imm9.toInt
    let p := s.status.getLsbD 0 = true
    let z := s.status.getLsbD 1 = true
    let n := s.status.getLsbD 2 = true
    (decode (0b0000#4 ++ 0b000#3 ++ imm9) = .nop ∧
      ∃ t, exec .nop s = .next t ∧ TransferEffect s t next) ∧
    (decode (0b0000#4 ++ 0b001#3 ++ imm9) = .brp imm9 ∧
      ∃ t, exec (.brp imm9) s = .next t ∧ TransferEffect s t (if p then far else next)) ∧
    (decode (0b0000#4 ++ 0b010#3 ++ imm9) = .brz imm9 ∧
      ∃ t, exec (.brz imm9) s = .next t ∧ TransferEffect s t (if z then far else next)) ∧
    (decode (0b0000#4 ++ 0b011#3 ++ imm9) = .brzp imm9 ∧
      ∃ t, exec (.brzp imm9) s = .next t ∧ TransferEffect s t (if z ∨ p then far else next)) ∧
    (decode (0b0000#4 ++ 0b100#3 ++ imm9) = .brn imm9 ∧
      ∃ t, exec (.brn imm9) s = .next t ∧ TransferEffect s t (if n then far else next)) ∧
    (decode (0b0000#4 ++ 0b101#3 ++ imm9) = .brnp imm9 ∧
      ∃ t, exec (.brnp imm9) s = .next t ∧ TransferEffect s t (if n ∨ p then far else next)) ∧
    (decode (0b0000#4 ++ 0b110#3 ++ imm9) = .brnz imm9 ∧
      ∃ t, exec (.brnz imm9) s = .next t ∧ TransferEffect s t (if n ∨ z then far else next)) ∧
    (decode (0b0000#4 ++ 0b111#3 ++ imm9) = .brnzp imm9 ∧
      ∃ t, exec (.brnzp imm9) s = .next t ∧ TransferEffect s t far)

/-- JMP and JMPR (R202, R203; bit 11 by the spec's decision D5): the relative target and register plus offset, and nothing but
`pc` changed. -/
def Obligations.JumpsGoToTheirTargets : Prop :=
  ∀ (r : RegIdx) (imm6 : BitVec 6) (imm11 : BitVec 11) (x : BitVec 2) (s : State),
    (decode (0b1100#4 ++ 0b1#1 ++ imm11) = .jmp imm11 ∧
      ∃ t, exec (.jmp imm11) s = .next t ∧ TransferEffect s t (s.pc.toNat + 1 + imm11.toInt)) ∧
    (decode (0b1100#4 ++ 0b0#1 ++ x ++ r ++ imm6) = .jmpr r imm6 ∧
      ∃ t, exec (.jmpr r imm6) s = .next t ∧
        TransferEffect s t ((readReg s r).toNat + imm6.toInt))

/-- JSR and JSRR (R200, R201; bit 11 by the spec's decision D5): `pc + 1` into R7 with its flags, then the target, where JSRR
through R7 reads the new R7. -/
def Obligations.SubroutineJumpsLinkThenJump : Prop :=
  ∀ (r : RegIdx) (imm6 : BitVec 6) (imm11 : BitVec 11) (x : BitVec 2) (s : State),
    (decode (0b0100#4 ++ 0b1#1 ++ imm11) = .jsr imm11 ∧
      ∃ t, exec (.jsr imm11) s = .next t ∧ ResultEffect s t 7 (s.pc + 1) s.sig t.pc ∧
        (t.pc.toNat : Int) = (s.pc.toNat + 1 + imm11.toInt) % 65536) ∧
    (decode (0b0100#4 ++ 0b0#1 ++ x ++ r ++ imm6) = .jsrr r imm6 ∧
      ∃ t, exec (.jsrr r imm6) s = .next t ∧ ResultEffect s t 7 (s.pc + 1) s.sig t.pc ∧
        (t.pc.toNat : Int) =
          (((if r = 7 then s.pc + 1 else readReg s r).toNat : Int) + imm6.toInt) % 65536)

/-- LDR (R210): the word at base plus offset into `x[d]`, its flags (decision D7), and the snapshot's memory fields without a
write (D12); the address wraps (D11). -/
def Obligations.LoadReadsTheWordAtBasePlusOffset : Prop :=
  ∀ (d r : RegIdx) (imm6 : BitVec 6) (s : State),
    let ea := effAddr s r imm6
    decode (0b0110#4 ++ d ++ r ++ imm6) = .ldr d r imm6 ∧
    (ea.toNat : Int) = ((readReg s r).toNat + imm6.toInt) % 65536 ∧
    ∃ t, exec (.ldr d r imm6) s = .next t ∧
      ResultEffect s t d (readWord s.mem ea) { s.sig with memAddr := ea, memVal := readWord s.mem ea } (s.pc + 1)

/-- STR (R211): `x[d]` into the word at base plus offset, which wraps (D11), and into no other cell (the word's two
cells are log 2's); no register and no flag changes. -/
def Obligations.StoreWritesTheWordAtBasePlusOffset : Prop :=
  ∀ (d r : RegIdx) (imm6 : BitVec 6) (s : State),
    let ea := effAddr s r imm6
    decode (0b0111#4 ++ d ++ r ++ imm6) = .str d r imm6 ∧
    (ea.toNat : Int) = ((readReg s r).toNat + imm6.toInt) % 65536 ∧
    ∃ t, exec (.str d r imm6) s = .next t ∧
      readWord t.mem ea = readReg s d ∧
      (∀ k, k ≠ lowKey ea → k ≠ highKey ea → readByte t.mem k = readByte s.mem k) ∧
      (∀ a, a ≠ ea → readWord t.mem a = readWord s.mem a) ∧
      SameRegisters s t ∧ t.status = s.status ∧
      t.sig = { s.sig with memWE := true, memAddr := ea, memVal := readReg s d } ∧
      t.pc = s.pc + 1 ∧ SameRest s t

/-- TRAP (R220), in either mode and at either `TRAP_SETS_FLAGS`: the link in R7, PRIV set, the flags from the link or kept, the
vector in the trap page, whatever insn[11:8] hold (D14). -/
def Obligations.TrapEntersSupervisorMode : Prop :=
  ∀ (u8 : Byte) (x : BitVec 4) (s : State),
    decode (0b1111#4 ++ x ++ u8) = .trap u8 ∧
    ∃ t, exec (.trap u8) s = .next t ∧
      (∀ r, readReg t r = if r = 7 then s.pc + 1 else readReg s r) ∧
      flagPriv t.status = true ∧ (∀ b, 4 ≤ b → t.status.getLsbD b = s.status.getLsbD b) ∧
      (if s.params.trapSetsFlags = true then
        (flagN t.status = true ↔ (s.pc + 1).toInt < 0) ∧ (flagZ t.status = true ↔ s.pc + 1 = 0) ∧
        (flagP t.status = true ↔ 0 < (s.pc + 1).toInt) ∧
        t.sig =
          { s.sig with
            regWE := true, regSel := 7, regIn := s.pc + 1, flagWE := true, flagOut := flagField t.status }
      else
        flagField t.status = flagField s.status ∧
        t.sig = { s.sig with regWE := true, regSel := 7, regIn := s.pc + 1 }) ∧
      t.pc.toNat = 0x8000 + u8.toNat ∧ SameMemory s t ∧ SameRest s t

/-- RTI (R244), in either mode: `pc` from R7, the whole status cleared, nothing else changed. -/
def Obligations.TrapReturnClearsTheStatus : Prop :=
  decode 0x8000 = .rti ∧
  ∀ s : State, exec .rti s = .next { s with pc := readReg s 7, status := 0x0000 }

/-- The unassigned opcodes 3, 11 and 14 (R222): each only advances `pc`; at the step, the word is fetched, its record emitted
and the snapshot left cleared. That the record carries the old snapshot is R100 and R128 with the spec's decision D13 (conflict
C1); that it goes to the head of a trace list is the model's choice (log 3). -/
def Obligations.UnassignedOpcodesOnlyAdvance : Prop :=
  (∀ s : State,
    (∃ t, exec .undefOp3 s = .next t ∧ TransferEffect s t (s.pc.toNat + 1)) ∧
    (∃ t, exec .undefOp11 s = .next t ∧ TransferEffect s t (s.pc.toNat + 1)) ∧
    (∃ t, exec .undefOp14 s = .next t ∧ TransferEffect s t (s.pc.toNat + 1))) ∧
  ∀ s : State, s.run = .running → s.pc ≠ 0x80FF →
    ((fetch s).toNat / 4096 = 3 ∨ (fetch s).toNat / 4096 = 11 ∨ (fetch s).toNat / 4096 = 14) →
    step s = .next
      { s with
        pc := s.pc + 1, sig := Signals.cleared,
        trace := { pc := s.pc, insn := fetch s, sig := s.sig } :: s.trace }

/-! ## The machine -/

/-- A running core not at the sentinel fetches the word at `pc`, emits its record with the old snapshot, clears the snapshot, and
runs the decoded instruction (R100, R102). The position of the record is the spec's decision D13, the trace list it goes to the
model's (log 3). -/
def Obligations.StepRunsTheDecodedInstruction : Prop :=
  ∀ s : State, s.run = .running → s.pc ≠ 0x80FF →
    step s = exec (decode (readWord s.mem s.pc))
      { s with
        sig := Signals.cleared,
        trace := { pc := s.pc, insn := readWord s.mem s.pc, sig := s.sig } :: s.trace }

/-- A step of a halted core changes nothing and reports halted (R101). -/
def Obligations.HaltedStepChangesNothing : Prop :=
  ∀ s : State, s.run = .halted → step s = .next s ∧ s.halted = true

/-- The core is Running after reset, a running core's step ends Halted exactly when it began at the sentinel, and a halted core
stays halted (R32). -/
def Obligations.RunStateChangesOnlyByTheHaltCheck : Prop :=
  State.reset.run = .running ∧
  ∀ s t : State, step s = .next t →
    (s.run = .running → (t.run = .halted ↔ s.pc = 0x80FF)) ∧ (s.run = .halted → t.run = .halted)

/-- A running core at the sentinel ends its run there: however many steps follow, only the run state differs from what the last
executed instruction left (R264, R253). -/
def Obligations.ReachingTheSentinelEndsTheRun : Prop :=
  ∀ (k : Nat) (s : State),
    (s.run = .halted → Host.Core.run Sys2Proof.core k s = .next s) ∧
    (s.run = .running → s.pc = 0x80FF →
      Host.Core.run Sys2Proof.core (k + 1) s = .next { s with run := .halted })

/-- No run from any state faults or refuses: no instruction raises an exception (R240). From a state with more than one of P, Z
and N set, which R29 says is unreachable and the source meets with an assertion, that the run goes on is the model's choice
(log 9, DEDUCED). -/
def Obligations.EveryRunIsSafe : Prop :=
  ∀ (k : Nat) (s : State), safeRun k s

/-- Every step keeps a legal state legal: the memory's canonical form, status bits 15..4 zero and at most one of P, Z and N set
(R29), a legal flag output (R30), a halted core at the sentinel (R253), no record of the sentinel (R100, R128). The canonical
form is the model's choice (log 2), and so is the trace list the records are read from (log 3). -/
def Obligations.StepKeepsLegalStates : Prop :=
  ∀ s t : State, s.legal = true → step s = .next t → t.legal = true

/-- Every step keeps the snapshot the mirror of the write-back: each asserted port's value stands where it was written
(R111, R124, R127). -/
def Obligations.StepKeepsTheSnapshotMirror : Prop :=
  ∀ s t : State, s.mirrored → step s = .next t → t.mirrored

/-- The state after reset, for every image and every parameter, is legal and mirrored (R260). The memory's canonical form, which
`State.legal` includes, is the model's choice (log 2), and so is the trace list, empty at reset (log 3). -/
def Obligations.ResetMeetsBothInvariants : Prop :=
  State.reset.legal = true ∧ State.reset.mirrored ∧
  ∀ (p : Params) (image : Word → Word), (resetFrom p image).legal = true ∧ (resetFrom p image).mirrored

/-- The reset contract (R260), for every loader's image and every value of the parameters. -/
def Obligations.ResetEstablishesTheStatedState : Prop :=
  ∀ (p : Params) (image : Word → Word),
    let s := resetFrom p image
    s.pc = 0x8200 ∧ (∀ r, readReg s r = 0x0000) ∧ s.status = 0x0000 ∧ s.run = .running ∧
    s.sig = { regWE := false, regSel := 0, regIn := 0, flagWE := false, flagOut := 0,
              memWE := false, memAddr := 0, memVal := 0 } ∧
    ∀ a, readWord s.mem a = image a

/-- The fixed reset state is that of the image where the loader supplies nothing, with the parameters' defaults: the spec's own
decisions D6, D8, D9 and D15 (R7), held as log 1 and log 4 say. -/
def Obligations.TheFixedResetIsTheDefaultOne : Prop :=
  State.reset =
    resetFrom { aluImmWidth := .six, divSignedness := .signed, trapSetsFlags := true } (fun _ => 0x0000)

/-- The reset input at any time, halted or not: the registers of R260 again, and memory unchanged unless the loader supplies an
image (R262, the spec's decision D15). -/
def Obligations.ResetInputKeepsMemoryWithoutAnImage : Prop :=
  ∀ (s : State) (image : Word → Word),
    (∀ given, (applyReset s given).pc = 0x8200 ∧ (∀ r, readReg (applyReset s given) r = 0x0000) ∧
      (applyReset s given).status = 0x0000 ∧ (applyReset s given).sig = Signals.cleared ∧
      (applyReset s given).run = .running) ∧
    (applyReset s none).mem = s.mem ∧ ∀ a, readWord (applyReset s (some image)).mem a = image a

/-- The datapath's tables (R106, R110 to R127) and the instruction rules are the same machine, for every instruction, from every
state whose snapshot the step has cleared. -/
def Obligations.DatapathTablesAgreeWithTheInstructionRules : Prop :=
  ∀ (i : Instr) (s : State), s.sig = Signals.cleared → exec i s = .next (datapathExec i s)

/-- No program can observe the mode: runs from two states that differ only in the privilege bit stay alike in all else
(R246). -/
def Obligations.TheModeIsUnobservable : Prop :=
  ∀ (k : Nat) (s s' t : State), SameButMode s s' → Host.Core.run Sys2Proof.core k s = .next t →
    ∃ t', Host.Core.run Sys2Proof.core k s' = .next t' ∧ SameButMode t t'

/-- The mode is entered and left only by reset, TRAP and RTI; `SetFlags` leaves it (R247). -/
def Obligations.OnlyTrapAndReturnChangeTheMode : Prop :=
  flagPriv State.reset.status = false ∧
  (∀ (s : State) (v : Word), flagPriv (setFlags s v).status = flagPriv s.status) ∧
  ∀ (i : Instr) (s t : State), exec i s = .next t →
    ((∃ u8, i = .trap u8) → flagPriv t.status = true) ∧ (i = .rti → flagPriv t.status = false) ∧
    ((∀ u8, i ≠ .trap u8) → i ≠ .rti → flagPriv t.status = flagPriv s.status)

/-- After its fetch, no instruction but STR writes memory, and none but LDR reads it: with another memory it does the same to all
else (R51). -/
def Obligations.OnlyLoadsReadAndOnlyStoresWriteMemory : Prop :=
  ∀ (i : Instr) (s t : State), exec i s = .next t →
    ((∀ d r imm6, i ≠ .str d r imm6) → t.mem = s.mem) ∧
    ((∀ d r imm6, i ≠ .ldr d r imm6) → ∀ m : Memory,
      ∃ u, exec i { s with mem := m } = .next u ∧ u = { t with mem := u.mem })

/-- After any run, every word holds the value of the last store to it, or what it held before the run, and a load gets that value
(R59, R62). -/
def Obligations.MemoryHoldsTheLastStoreOfARun : Prop :=
  ∀ (k : Nat) (s t : State), Host.Core.run Sys2Proof.core k s = .next t →
    (∀ a, readWord t.mem a = (lastStore k s a).getD (readWord s.mem a)) ∧
    ∀ (d r : RegIdx) (imm6 : BitVec 6) (u : State), exec (.ldr d r imm6) t = .next u →
      readReg u d = (lastStore k s (effAddr t r imm6)).getD (readWord s.mem (effAddr t r imm6))

/-- A store to the next instruction's word is what the next step runs (R62, R265). -/
def Obligations.TheNextFetchSeesTheStore : Prop :=
  ∀ (s t : State) (d r : RegIdx) (imm6 : BitVec 6), s.executes = true →
    decode (fetch s) = .str d r imm6 → effAddr s r imm6 = s.pc + 1 → s.pc + 1 ≠ 0x80FF →
    step s = .next t →
      fetch t = readReg s d ∧ step t = exec (decode (readReg s d)) (beforeHandler t)

/-- A run puts out one record for each step that executes an instruction, in order, and none for a step that halts or is taken
while halted (R128). The list of the records, newest first, is the model's (log 3). -/
def Obligations.ARunPutsOutOneRecordPerExecutedStep : Prop :=
  ∀ (k : Nat) (s t : State), Host.Core.run Sys2Proof.core k s = .next t → t.trace = recordsOf k s ++ s.trace

/-- The trace lags one step: a record carries the snapshot the step before it wrote, and the first record after reset an all-zero
one (R129, which the spec marks derived). The list of the records, newest first, is the model's (log 3). -/
def Obligations.TheTraceLagsOneStep : Prop :=
  (∀ s t u v : State, s.executes = true → t.executes = true →
    exec (decode (fetch s)) { s with sig := Signals.cleared } = .next v → step s = .next t → step t = .next u →
    u.trace =
      { pc := t.pc, insn := readWord t.mem t.pc, sig := v.sig } ::
        { pc := s.pc, insn := readWord s.mem s.pc, sig := s.sig } :: s.trace) ∧
  ∀ (p : Params) (image : Word → Word) (t : State), step (resetFrom p image) = .next t →
    t.trace = [{ pc := 0x8200, insn := image 0x8200, sig := Signals.cleared }]

/-- Two memories in canonical form that read alike at every word are equal: the form of the list is the model's own
(log 2). -/
def Obligations.CanonicalMemoriesThatReadAlikeAreEqual : Prop :=
  ∀ m m' : Memory, m.wf = true → m'.wf = true → (∀ a, readWord m a = readWord m' a) → m = m'

/-- At most one register is written, the one the instruction's rule names (R111, which the spec marks derived). -/
def Obligations.OnlyTheNamedRegisterIsWritten : Prop :=
  ∀ (i : Instr) (s t : State), exec i s = .next t → ∀ r, destReg i ≠ some r → readReg t r = readReg s r

/-- A flag-affecting instruction leaves exactly one of N, Z and P set; RTI clears them; every other instruction keeps them and
asserts no flag write (R105, R106, R29; which instructions they are is the spec's decisions D7 and D8). -/
def Obligations.FlagsChangeOnlyByFlagAffectingInstructions : Prop :=
  ∀ (i : Instr) (s t : State), exec i s = .next t →
    t.sig.flagWE = (flagAffecting s.params i || s.sig.flagWE) ∧
    (if flagAffecting s.params i = true then
      flagField t.status = 1 ∨ flagField t.status = 2 ∨ flagField t.status = 4
    else if i = .rti then flagField t.status = 0
    else flagField t.status = flagField s.status)

/-- `TRAP #0xFF` halts: the step after it finds `pc` at the sentinel (R57, which the spec marks derived). -/
def Obligations.TrapToTheSentinelHaltsNextStep : Prop :=
  ∀ s : State, s.executes = true → decode (fetch s) = .trap 0xFF →
    ∃ t, Host.Core.run Sys2Proof.core 2 s = .next t ∧ t.halted = true ∧ t.pc = 0x80FF
end

