-- ==== Sys2Proof/Laws/Memory.lean ====
section
/-! SUPPORT. The memory's laws: read after write, and every operation keeps the canonical form. -/

namespace Sys2Proof.Machine

@[simp] theorem readByte_nil (k : Nat) : readByte [] k = unlisted := rfl

theorem readByte_cons (k' : Nat) (v : Byte) (m : Memory) (k : Nat) :
    readByte ((k', v) :: m) k = if k = k' then v else readByte m k := rfl

/-- No listed cell has key `k` after a drop of `k`. -/
theorem key_ne_of_mem_dropCell {m : Memory} {k : Nat} {c : Host.Cell} (h : c ∈ dropCell m k) : c.1 ≠ k := by
  simpa [dropCell] using (List.mem_filter.mp h).2

theorem readByte_dropCell (m : Memory) (k j : Nat) :
    readByte (dropCell m k) j = if j = k then unlisted else readByte m j := by
  induction m with
  | nil => simp [dropCell]
  | cons c rest ih =>
    obtain ⟨k', v⟩ := c
    have hd : dropCell ((k', v) :: rest) k = if k' = k then dropCell rest k else (k', v) :: dropCell rest k := by
      by_cases h : k' = k <;> simp [dropCell, h]
    rw [hd, readByte_cons]
    by_cases hk : k' = k
    · subst hk
      rw [if_pos rfl, ih]
      by_cases hj : j = k' <;> simp [hj]
    · rw [if_neg hk, readByte_cons, ih]
      by_cases hj : j = k'
      · subst hj
        simp [hk]
      · simp [hj]

theorem readByte_insertCell {m : Memory} {k : Nat} (h : ∀ c ∈ m, c.1 ≠ k) (v : Byte) (j : Nat) :
    readByte (insertCell m k v) j = if j = k then v else readByte m j := by
  induction m with
  | nil => simp [insertCell, readByte_cons]
  | cons c rest ih =>
    obtain ⟨k', v'⟩ := c
    have hne : k' ≠ k := h (k', v') (List.mem_cons_self ..)
    have hrest := ih fun c hc => h c (List.mem_cons_of_mem _ hc)
    unfold insertCell
    by_cases hlt : k < k'
    · rw [if_pos hlt, readByte_cons]
    · rw [if_neg hlt, readByte_cons, readByte_cons, hrest]
      by_cases hj : j = k'
      · subst hj
        simp [hne]
      · simp [hj]

/-- A write of one cell: that cell reads as written, every other cell as before. -/
theorem readByte_writeByte (m : Memory) (k : Nat) (v : Byte) (j : Nat) :
    readByte (writeByte m k v) j = if j = k then v else readByte m j := by
  unfold writeByte
  split
  · next hv => rw [readByte_dropCell, hv]
  · rw [readByte_insertCell (fun c hc => key_ne_of_mem_dropCell hc), readByte_dropCell]
    split <;> rfl

/-- A write of one word, cell by cell: the two cells of that word change, every other cell reads as before. -/
theorem readByte_writeWord (m : Memory) (a v : Word) (k : Nat) :
    readByte (writeWord m a v) k =
      if k = highKey a then v.extractLsb' 8 8
      else if k = lowKey a then v.extractLsb' 0 8 else readByte m k := by
  rw [writeWord, readByte_writeByte, readByte_writeByte]

theorem lowKey_ne_highKey (a b : Word) : lowKey a ≠ highKey b := by
  unfold lowKey highKey
  omega

theorem lowKey_inj {a b : Word} : lowKey a = lowKey b ↔ a = b := by
  unfold lowKey
  rw [← BitVec.toNat_inj]
  omega

theorem highKey_inj {a b : Word} : highKey a = highKey b ↔ a = b := by
  unfold highKey
  rw [← BitVec.toNat_inj]
  omega

theorem append_halves (v : Word) : (v.extractLsb' 8 8 ++ v.extractLsb' 0 8 : BitVec 16) = v := by
  ext i hi
  simp only [BitVec.getElem_append, BitVec.getElem_extractLsb']
  split
  · simp [BitVec.getLsbD_eq_getElem hi]
  · next h =>
    have : 8 + (i - 8) = i := by omega
    simp [this, BitVec.getLsbD_eq_getElem hi]

/-- Read after write, word by word (spec/20_memory.md R59). -/
theorem readWord_writeWord (m : Memory) (a v b : Word) :
    readWord (writeWord m a v) b = if b = a then v else readWord m b := by
  unfold readWord
  rw [readByte_writeWord, readByte_writeWord, if_neg (lowKey_ne_highKey b a)]
  by_cases h : b = a
  · subst h
    simp only [if_true]
    exact append_halves v
  · have h1 : ¬ highKey b = highKey a := fun e => h (highKey_inj.mp e)
    have h2 : ¬ lowKey b = lowKey a := fun e => h (lowKey_inj.mp e)
    have h3 : ¬ highKey b = lowKey a := fun e => lowKey_ne_highKey a b e.symm
    simp only [h, h1, h2, h3, if_false]

/-! ### The canonical form -/

theorem lowKey_lt (a : Word) : lowKey a < cellCount := by
  have := a.isLt
  unfold lowKey cellCount
  omega

theorem highKey_lt (a : Word) : highKey a < cellCount := by
  have := a.isLt
  unfold highKey cellCount
  omega

theorem wfFrom_cons (n k : Nat) (v : Byte) (m : Memory) :
    wfFrom n ((k, v) :: m) = true ↔ n ≤ k ∧ k < cellCount ∧ v ≠ unlisted ∧ wfFrom (k + 1) m = true := by
  simp [wfFrom, and_assoc]

theorem wfFrom_mono {m : Memory} {n n' : Nat} (h : wfFrom n m = true) (hn : n' ≤ n) : wfFrom n' m = true := by
  cases m with
  | nil => rfl
  | cons c rest =>
    rw [wfFrom_cons] at h ⊢
    exact ⟨le_trans hn h.1, h.2⟩

theorem wfFrom_dropCell {m : Memory} {n : Nat} (k : Nat) (h : wfFrom n m = true) :
    wfFrom n (dropCell m k) = true := by
  induction m generalizing n with
  | nil => rfl
  | cons c rest ih =>
    obtain ⟨k', v⟩ := c
    rw [wfFrom_cons] at h
    by_cases hk : k' = k
    · have : dropCell ((k', v) :: rest) k = dropCell rest k := by simp [dropCell, hk]
      rw [this]
      exact wfFrom_mono (ih h.2.2.2) (by omega)
    · have : dropCell ((k', v) :: rest) k = (k', v) :: dropCell rest k := by simp [dropCell, hk]
      rw [this, wfFrom_cons]
      exact ⟨h.1, h.2.1, h.2.2.1, ih h.2.2.2⟩

theorem wfFrom_insertCell {m : Memory} {n k : Nat} {v : Byte} (h : wfFrom n m = true)
    (hne : ∀ c ∈ m, c.1 ≠ k) (hn : n ≤ k) (hk : k < cellCount) (hv : v ≠ unlisted) :
    wfFrom n (insertCell m k v) = true := by
  induction m generalizing n with
  | nil =>
    rw [insertCell, wfFrom_cons]
    exact ⟨hn, hk, hv, rfl⟩
  | cons c rest ih =>
    obtain ⟨k', v'⟩ := c
    have hk' : k' ≠ k := hne (k', v') (List.mem_cons_self ..)
    rw [wfFrom_cons] at h
    unfold insertCell
    split
    · rw [wfFrom_cons, wfFrom_cons]
      exact ⟨hn, hk, hv, by omega, h.2⟩
    · rw [wfFrom_cons]
      exact ⟨h.1, h.2.1, h.2.2.1,
        ih h.2.2.2 (fun c hc => hne c (List.mem_cons_of_mem _ hc)) (by omega)⟩

/-- A write of one cell inside the address space keeps the canonical form. -/
theorem wf_writeByte {m : Memory} (h : m.wf = true) {k : Nat} (hk : k < cellCount) (v : Byte) :
    (writeByte m k v : Memory).wf = true := by
  unfold writeByte
  split
  · exact wfFrom_dropCell k h
  · next hv =>
    exact wfFrom_insertCell (wfFrom_dropCell k h) (fun c hc => key_ne_of_mem_dropCell hc) (Nat.zero_le k) hk hv

/-- A write of one word keeps the canonical form. -/
theorem wf_writeWord {m : Memory} (h : m.wf = true) (a v : Word) : (writeWord m a v : Memory).wf = true :=
  wf_writeByte (wf_writeByte h (lowKey_lt a) _) (highKey_lt a) _

theorem wf_imageUpTo (image : Word → Word) (n : Nat) : (imageUpTo image n : Memory).wf = true := by
  induction n with
  | zero => rfl
  | succ n ih => exact wf_writeWord ih _ _

/-- A loader's image is in canonical form. -/
theorem wf_imageMemory (image : Word → Word) : (imageMemory image : Memory).wf = true := wf_imageUpTo image 65536

/-- The memory right after reset, with nothing listed, is in canonical form. -/
theorem wf_nil : Memory.wf [] = true := rfl

end Sys2Proof.Machine
end

