-- ==== Sys2Proof/Laws/State.lean ====
section
/-! SUPPORT. What each field of the state is after each basic operation, by unfolding, so that no later proof opens a
record update. -/

namespace Sys2Proof.Machine

/-! ### writeReg -/

@[simp] theorem writeReg_pc (s : State) (r : RegIdx) (v : Word) : (writeReg s r v).pc = s.pc := rfl
@[simp] theorem writeReg_regs (s : State) (r : RegIdx) (v : Word) : (writeReg s r v).regs = s.regs.set r.toNat v r.isLt := rfl
@[simp] theorem writeReg_status (s : State) (r : RegIdx) (v : Word) : (writeReg s r v).status = s.status := rfl
@[simp] theorem writeReg_mem (s : State) (r : RegIdx) (v : Word) : (writeReg s r v).mem = s.mem := rfl
@[simp] theorem writeReg_sig (s : State) (r : RegIdx) (v : Word) : (writeReg s r v).sig = { s.sig with regWE := true, regSel := r, regIn := v } := rfl
@[simp] theorem writeReg_run (s : State) (r : RegIdx) (v : Word) : (writeReg s r v).run = s.run := rfl
@[simp] theorem writeReg_trace (s : State) (r : RegIdx) (v : Word) : (writeReg s r v).trace = s.trace := rfl
@[simp] theorem writeReg_params (s : State) (r : RegIdx) (v : Word) : (writeReg s r v).params = s.params := rfl

/-! ### setFlags -/

@[simp] theorem setFlags_pc (s : State) (v : Word) : (setFlags s v).pc = s.pc := rfl
@[simp] theorem setFlags_regs (s : State) (v : Word) : (setFlags s v).regs = s.regs := rfl
@[simp] theorem setFlags_status (s : State) (v : Word) : (setFlags s v).status = withFlags s.status (flagCode v) := rfl
@[simp] theorem setFlags_mem (s : State) (v : Word) : (setFlags s v).mem = s.mem := rfl
@[simp] theorem setFlags_sig (s : State) (v : Word) : (setFlags s v).sig = { s.sig with flagWE := true, flagOut := flagCode v } := rfl
@[simp] theorem setFlags_run (s : State) (v : Word) : (setFlags s v).run = s.run := rfl
@[simp] theorem setFlags_trace (s : State) (v : Word) : (setFlags s v).trace = s.trace := rfl
@[simp] theorem setFlags_params (s : State) (v : Word) : (setFlags s v).params = s.params := rfl

/-! ### noteLoad -/

@[simp] theorem noteLoad_pc (s : State) (a v : Word) : (noteLoad s a v).pc = s.pc := rfl
@[simp] theorem noteLoad_regs (s : State) (a v : Word) : (noteLoad s a v).regs = s.regs := rfl
@[simp] theorem noteLoad_status (s : State) (a v : Word) : (noteLoad s a v).status = s.status := rfl
@[simp] theorem noteLoad_mem (s : State) (a v : Word) : (noteLoad s a v).mem = s.mem := rfl
@[simp] theorem noteLoad_sig (s : State) (a v : Word) : (noteLoad s a v).sig = { s.sig with memAddr := a, memVal := v } := rfl
@[simp] theorem noteLoad_run (s : State) (a v : Word) : (noteLoad s a v).run = s.run := rfl
@[simp] theorem noteLoad_trace (s : State) (a v : Word) : (noteLoad s a v).trace = s.trace := rfl
@[simp] theorem noteLoad_params (s : State) (a v : Word) : (noteLoad s a v).params = s.params := rfl

/-! ### memWrite -/

@[simp] theorem memWrite_pc (s : State) (a v : Word) : (memWrite s a v).pc = s.pc := rfl
@[simp] theorem memWrite_regs (s : State) (a v : Word) : (memWrite s a v).regs = s.regs := rfl
@[simp] theorem memWrite_status (s : State) (a v : Word) : (memWrite s a v).status = s.status := rfl
@[simp] theorem memWrite_mem (s : State) (a v : Word) : (memWrite s a v).mem = writeWord s.mem a v := rfl
@[simp] theorem memWrite_sig (s : State) (a v : Word) : (memWrite s a v).sig = { s.sig with memWE := true, memAddr := a, memVal := v } := rfl
@[simp] theorem memWrite_run (s : State) (a v : Word) : (memWrite s a v).run = s.run := rfl
@[simp] theorem memWrite_trace (s : State) (a v : Word) : (memWrite s a v).trace = s.trace := rfl
@[simp] theorem memWrite_params (s : State) (a v : Word) : (memWrite s a v).params = s.params := rfl

/-! ### jumpTo -/

@[simp] theorem jumpTo_pc (s : State) (target : Word) : (jumpTo s target).pc = target := rfl
@[simp] theorem jumpTo_regs (s : State) (target : Word) : (jumpTo s target).regs = s.regs := rfl
@[simp] theorem jumpTo_status (s : State) (target : Word) : (jumpTo s target).status = s.status := rfl
@[simp] theorem jumpTo_mem (s : State) (target : Word) : (jumpTo s target).mem = s.mem := rfl
@[simp] theorem jumpTo_sig (s : State) (target : Word) : (jumpTo s target).sig = s.sig := rfl
@[simp] theorem jumpTo_run (s : State) (target : Word) : (jumpTo s target).run = s.run := rfl
@[simp] theorem jumpTo_trace (s : State) (target : Word) : (jumpTo s target).trace = s.trace := rfl
@[simp] theorem jumpTo_params (s : State) (target : Word) : (jumpTo s target).params = s.params := rfl

/-! ### advance -/

@[simp] theorem advance_pc (s : State) : (advance s).pc = succWord s.pc := rfl
@[simp] theorem advance_regs (s : State) : (advance s).regs = s.regs := rfl
@[simp] theorem advance_status (s : State) : (advance s).status = s.status := rfl
@[simp] theorem advance_mem (s : State) : (advance s).mem = s.mem := rfl
@[simp] theorem advance_sig (s : State) : (advance s).sig = s.sig := rfl
@[simp] theorem advance_run (s : State) : (advance s).run = s.run := rfl
@[simp] theorem advance_trace (s : State) : (advance s).trace = s.trace := rfl
@[simp] theorem advance_params (s : State) : (advance s).params = s.params := rfl

/-! ### emitTrace -/

@[simp] theorem emitTrace_pc (s : State) : (emitTrace s).pc = s.pc := rfl
@[simp] theorem emitTrace_regs (s : State) : (emitTrace s).regs = s.regs := rfl
@[simp] theorem emitTrace_status (s : State) : (emitTrace s).status = s.status := rfl
@[simp] theorem emitTrace_mem (s : State) : (emitTrace s).mem = s.mem := rfl
@[simp] theorem emitTrace_sig (s : State) : (emitTrace s).sig = s.sig := rfl
@[simp] theorem emitTrace_run (s : State) : (emitTrace s).run = s.run := rfl
@[simp] theorem emitTrace_trace (s : State) : (emitTrace s).trace = traceRecord s :: s.trace := rfl
@[simp] theorem emitTrace_params (s : State) : (emitTrace s).params = s.params := rfl

/-! ### clearSig -/

@[simp] theorem clearSig_pc (s : State) : (clearSig s).pc = s.pc := rfl
@[simp] theorem clearSig_regs (s : State) : (clearSig s).regs = s.regs := rfl
@[simp] theorem clearSig_status (s : State) : (clearSig s).status = s.status := rfl
@[simp] theorem clearSig_mem (s : State) : (clearSig s).mem = s.mem := rfl
@[simp] theorem clearSig_sig (s : State) : (clearSig s).sig = Signals.cleared := rfl
@[simp] theorem clearSig_run (s : State) : (clearSig s).run = s.run := rfl
@[simp] theorem clearSig_trace (s : State) : (clearSig s).trace = s.trace := rfl
@[simp] theorem clearSig_params (s : State) : (clearSig s).params = s.params := rfl

/-! ### halt -/

@[simp] theorem halt_pc (s : State) : (halt s).pc = s.pc := rfl
@[simp] theorem halt_regs (s : State) : (halt s).regs = s.regs := rfl
@[simp] theorem halt_status (s : State) : (halt s).status = s.status := rfl
@[simp] theorem halt_mem (s : State) : (halt s).mem = s.mem := rfl
@[simp] theorem halt_sig (s : State) : (halt s).sig = s.sig := rfl
@[simp] theorem halt_run (s : State) : (halt s).run = .halted := rfl
@[simp] theorem halt_trace (s : State) : (halt s).trace = s.trace := rfl
@[simp] theorem halt_params (s : State) : (halt s).params = s.params := rfl

/-! ### returnFromTrap -/

@[simp] theorem returnFromTrap_pc (s : State) : (returnFromTrap s).pc = readReg s linkReg := rfl
@[simp] theorem returnFromTrap_regs (s : State) : (returnFromTrap s).regs = s.regs := rfl
@[simp] theorem returnFromTrap_status (s : State) : (returnFromTrap s).status = 0 := rfl
@[simp] theorem returnFromTrap_mem (s : State) : (returnFromTrap s).mem = s.mem := rfl
@[simp] theorem returnFromTrap_sig (s : State) : (returnFromTrap s).sig = s.sig := rfl
@[simp] theorem returnFromTrap_run (s : State) : (returnFromTrap s).run = s.run := rfl
@[simp] theorem returnFromTrap_trace (s : State) : (returnFromTrap s).trace = s.trace := rfl
@[simp] theorem returnFromTrap_params (s : State) : (returnFromTrap s).params = s.params := rfl

/-! ### reset -/

@[simp] theorem reset_pc : State.reset.pc = 0x8200 := rfl
@[simp] theorem reset_regs : State.reset.regs = Vector.replicate 8 0 := rfl
@[simp] theorem reset_status : State.reset.status = 0 := rfl
@[simp] theorem reset_mem : State.reset.mem = [] := rfl
@[simp] theorem reset_sig : State.reset.sig = Signals.cleared := rfl
@[simp] theorem reset_run : State.reset.run = .running := rfl
@[simp] theorem reset_trace : State.reset.trace = [] := rfl
@[simp] theorem reset_params : State.reset.params = defaultParams := rfl

end Sys2Proof.Machine
end

