-- ==== Sys2Proof/Laws/Ops.lean ====
section
/-! SUPPORT. One lemma per shared operation that says everything it does, for proofs to cite instead of unfolding. -/

namespace Sys2Proof.Machine

/-! ### Registers -/

/-- A register write: that register reads as written, every other as before. -/
@[simp] theorem readReg_writeReg (s : State) (r q : RegIdx) (v : Word) :
    readReg (writeReg s r v) q = if q = r then v else readReg s q := by
  simp [readReg, Vector.getElem_set, BitVec.toNat_inj, eq_comm]

/-- Reading a register looks at the register file only. -/
theorem readReg_congr {s t : State} (h : t.regs = s.regs) (r : RegIdx) : readReg t r = readReg s r := by
  simp only [readReg, h]

@[simp] theorem readReg_setFlags (s : State) (v : Word) (r : RegIdx) : readReg (setFlags s v) r = readReg s r := rfl
@[simp] theorem readReg_noteLoad (s : State) (a v : Word) (r : RegIdx) : readReg (noteLoad s a v) r = readReg s r := rfl
@[simp] theorem readReg_memWrite (s : State) (a v : Word) (r : RegIdx) : readReg (memWrite s a v) r = readReg s r := rfl
@[simp] theorem readReg_jumpTo (s : State) (a : Word) (r : RegIdx) : readReg (jumpTo s a) r = readReg s r := rfl
@[simp] theorem readReg_advance (s : State) (r : RegIdx) : readReg (advance s) r = readReg s r := rfl
@[simp] theorem readReg_beforeHandler (s : State) (r : RegIdx) : readReg (beforeHandler s) r = readReg s r := rfl
@[simp] theorem readReg_halt (s : State) (r : RegIdx) : readReg (halt s) r = readReg s r := rfl
@[simp] theorem readReg_returnFromTrap (s : State) (r : RegIdx) : readReg (returnFromTrap s) r = readReg s r := rfl

/-- Every register is zero right after reset (R27). -/
theorem readReg_reset (r : RegIdx) : readReg State.reset r = 0 := by
  simp [readReg]

/-! ### The status register -/

@[simp] theorem flagField_withFlags (status : Word) (code : BitVec 3) : flagField (withFlags status code) = code := by
  ext i hi
  simp only [flagField, withFlags, BitVec.getElem_extractLsb', Nat.zero_add, BitVec.getLsbD_append, hi,
    if_true, BitVec.getLsbD_eq_getElem hi]

/-- `withFlags` keeps every bit from bit 3 up (R104). -/
theorem getLsbD_withFlags (status : Word) (code : BitVec 3) (b : Nat) :
    (withFlags status code).getLsbD b = if b < 3 then code.getLsbD b else status.getLsbD b := by
  simp only [withFlags, BitVec.getLsbD_append, BitVec.getLsbD_extractLsb']
  by_cases h : b < 3
  · simp [h]
  · have hb : 3 + (b - 3) = b := by omega
    by_cases h16 : b - 3 < 13
    · simp [h, h16, hb]
    · have : status.getLsbD b = false := BitVec.getLsbD_of_ge _ _ (by omega)
      simp [h, h16, this]

/-- `withPriv` sets bit 3 and keeps every other bit (R220). -/
theorem getLsbD_withPriv (status : Word) (b : Nat) :
    (withPriv status).getLsbD b = (status.getLsbD b || decide (b = 3)) := by
  have h : (0x0008#16).getLsbD b = decide (b = 3) := by
    by_cases hb : b < 16
    · interval_cases b <;> rfl
    · rw [BitVec.getLsbD_of_ge _ _ (by omega)]
      simp
      omega
  simp [withPriv, privBit, h]

/-- `withPriv` keeps the flag field. -/
@[simp] theorem flagField_withPriv (status : Word) : flagField (withPriv status) = flagField status := by
  apply BitVec.eq_of_getLsbD_eq
  intro b hb
  simp only [flagField, BitVec.getLsbD_extractLsb', getLsbD_withPriv, hb]
  simp
  omega

/-- The flag code is 4, 2 or 1, as the value is negative, zero or positive (R104). -/
theorem flagCode_cases (v : Word) :
    (v.toInt < 0 ∧ flagCode v = 4) ∨ (v = 0 ∧ flagCode v = 2) ∨ (0 < v.toInt ∧ flagCode v = 1) := by
  unfold flagCode
  by_cases hn : v.toInt < 0
  · exact .inl ⟨hn, if_pos hn⟩
  · by_cases hz : v = 0
    · exact .inr (.inl ⟨hz, by simp [hz]⟩)
    · refine .inr (.inr ⟨?_, by rw [if_neg hn, if_neg hz]⟩)
      have : v.toInt ≠ 0 := fun h => hz (BitVec.eq_of_toInt_eq (by simpa using h))
      omega

/-! ### Whole operations -/

/-- Everything an instruction that computes `v` into `x[d]` does (R135). -/
theorem finishResult_eq (s : State) (d : RegIdx) (v : Word) :
    finishResult s d v =
      { s with
        pc := succWord s.pc
        regs := s.regs.set d.toNat v d.isLt
        status := withFlags s.status (flagCode v)
        sig :=
          { s.sig with
            regWE := true, regSel := d, regIn := v, flagWE := true, flagOut := flagCode v } } := rfl

@[simp] theorem readReg_finishResult (s : State) (d : RegIdx) (v : Word) (r : RegIdx) :
    readReg (finishResult s d v) r = if r = d then v else readReg s r :=
  readReg_writeReg s d r v

/-- Everything a compare does (R170). -/
theorem finishCompare_eq (s : State) (v : Word) :
    finishCompare s v =
      { s with
        pc := succWord s.pc
        status := withFlags s.status (flagCode v)
        sig := { s.sig with flagWE := true, flagOut := flagCode v } } := rfl

/-- A branch changes `pc` and nothing else. -/
theorem branchOn_eq (cond : BitVec 3) (imm9 : BitVec 9) (s : State) :
    branchOn cond imm9 s =
      { s with pc := if taken cond s.status then relTarget s.pc (sext imm9) else succWord s.pc } := by
  unfold branchOn
  split <;> rfl

/-- Everything the link of a subroutine jump does (R200, R201). -/
theorem linkCall_eq (s : State) :
    linkCall s =
      { s with
        regs := s.regs.set 7 (succWord s.pc)
        status := withFlags s.status (flagCode (succWord s.pc))
        sig :=
          { s.sig with
            regWE := true, regSel := 7, regIn := succWord s.pc,
            flagWE := true, flagOut := flagCode (succWord s.pc) } } := rfl

@[simp] theorem readReg_linkCall (s : State) (r : RegIdx) :
    readReg (linkCall s) r = if r = linkReg then succWord s.pc else readReg s r :=
  readReg_writeReg s linkReg r _

/-- Everything trap entry does, by the value of `TRAP_SETS_FLAGS` (R220). -/
theorem enterTrap_eq (s : State) (u8 : Byte) :
    enterTrap s u8 =
      { s with
        pc := vectorFrom trapBase u8
        regs := s.regs.set 7 (succWord s.pc)
        status :=
          withPriv (if s.params.trapSetsFlags then withFlags s.status (flagCode (succWord s.pc)) else s.status)
        sig :=
          if s.params.trapSetsFlags then
            { s.sig with
              regWE := true, regSel := 7, regIn := succWord s.pc,
              flagWE := true, flagOut := flagCode (succWord s.pc) }
          else { s.sig with regWE := true, regSel := 7, regIn := succWord s.pc } } := by
  unfold enterTrap
  by_cases h : s.params.trapSetsFlags = true
  · simp only [h, if_true]
    rfl
  · simp only [h]
    rfl

/-- Everything trap return does (R221). -/
theorem returnFromTrap_eq (s : State) :
    returnFromTrap s = { s with pc := readReg s linkReg, status := 0 } := rfl

/-- Everything a step does before its handler (R100). -/
theorem beforeHandler_eq (s : State) :
    beforeHandler s = { s with sig := Signals.cleared, trace := traceRecord s :: s.trace } := rfl

end Sys2Proof.Machine
end

