-- ==== Sys2Proof/Laws/PerInstr.lean ====
section
/-! SUPPORT. A family stated of every instruction: its encoding is a word of its own row of the opcode table
(spec/30_encoding.md R84). One lemma per constructor. -/

namespace Sys2Proof.Laws

/-- A well-formed instruction encodes to a word of the table's row of its mnemonic. -/
def EncodesOwnRow.Statement (i : Instr) : Prop :=
  i.wellFormed = true → ∃ r ∈ opcodeTable, r.mnemonic = i.mnemonic ∧ r.selects (encode i) = true

theorem encodesOwnRow_of {i : Instr} (r : OpRow) (hr : r ∈ opcodeTable) (hm : r.mnemonic = i.mnemonic)
    (he : encode i &&& r.mask = r.pattern) : EncodesOwnRow.Statement i :=
  fun _ => ⟨r, hr, hm, by simp [OpRow.selects, he]⟩

/-! ### The fixed bits of each format -/

theorem encodeBranch_fixed (cond : BitVec 3) (imm9 : BitVec 9) :
    encodeBranch cond imm9 &&& 0xFE00 = 0#4 ++ cond ++ 0#9 := by
  apply BitVec.eq_of_getLsbD_eq
  intro b hb
  interval_cases b <;> simp only [encodeBranch, BitVec.getLsbD_and, BitVec.getLsbD_append] <;> simp

theorem encodeAr_fixed (op : BitVec 4) (d s : RegIdx) (sub : BitVec 2) (t : RegIdx) :
    encodeAr op d s sub t &&& 0xF038 = op ++ 0#7 ++ sub ++ 0#3 := by
  apply BitVec.eq_of_getLsbD_eq
  intro b hb
  interval_cases b <;> simp only [encodeAr, BitVec.getLsbD_and, BitVec.getLsbD_append] <;> simp

theorem encodeCr_fixed (d : RegIdx) (sub : BitVec 2) (t : RegIdx) :
    encodeCr d sub t &&& 0xF180 = 2#4 ++ 0#3 ++ sub ++ 0#7 := by
  apply BitVec.eq_of_getLsbD_eq
  intro b hb
  interval_cases b <;> simp only [encodeCr, BitVec.getLsbD_and, BitVec.getLsbD_append] <;> simp

theorem encodeCi_fixed (d : RegIdx) (sub : BitVec 2) (imm6 : BitVec 6) :
    encodeCi d sub imm6 &&& 0xF180 = 2#4 ++ 0#3 ++ sub ++ 0#7 := by
  apply BitVec.eq_of_getLsbD_eq
  intro b hb
  interval_cases b <;> simp only [encodeCi, BitVec.getLsbD_and, BitVec.getLsbD_append] <;> simp

theorem encodeJr_fixed (op : BitVec 4) (s : RegIdx) (imm6 : BitVec 6) :
    encodeJr op s imm6 &&& 0xF800 = op ++ 0#12 := by
  apply BitVec.eq_of_getLsbD_eq
  intro b hb
  interval_cases b <;> simp only [encodeJr, BitVec.getLsbD_and, BitVec.getLsbD_append] <;> simp

theorem encodeJ11_fixed (op : BitVec 4) (imm11 : BitVec 11) :
    encodeJ11 op imm11 &&& 0xF800 = op ++ 1#1 ++ 0#11 := by
  apply BitVec.eq_of_getLsbD_eq
  intro b hb
  interval_cases b <;> simp only [encodeJ11, BitVec.getLsbD_and, BitVec.getLsbD_append] <;> simp

theorem encodeSh_fixed (d s : RegIdx) (sub : BitVec 2) (u4 : BitVec 4) :
    encodeSh d s sub u4 &&& 0xF030 = 10#4 ++ 0#6 ++ sub ++ 0#4 := by
  apply BitVec.eq_of_getLsbD_eq
  intro b hb
  interval_cases b <;> simp only [encodeSh, BitVec.getLsbD_and, BitVec.getLsbD_append] <;> simp

theorem encodeMod_fixed (d s t : RegIdx) :
    encodeMod d s t &&& 0xF030 = 10#4 ++ 0#6 ++ 3#2 ++ 0#4 := by
  apply BitVec.eq_of_getLsbD_eq
  intro b hb
  interval_cases b <;> simp only [encodeMod, BitVec.getLsbD_and, BitVec.getLsbD_append] <;> simp

theorem encodeConst_fixed (d : RegIdx) (imm9 : BitVec 9) :
    encodeConst d imm9 &&& 0xF000 = 9#4 ++ 0#12 := by
  apply BitVec.eq_of_getLsbD_eq
  intro b hb
  interval_cases b <;> simp only [encodeConst, BitVec.getLsbD_and, BitVec.getLsbD_append] <;> simp

theorem encodeHc_fixed (d : RegIdx) (u8 : Byte) :
    encodeHc d u8 &&& 0xF000 = 13#4 ++ 0#12 := by
  apply BitVec.eq_of_getLsbD_eq
  intro b hb
  interval_cases b <;> simp only [encodeHc, BitVec.getLsbD_and, BitVec.getLsbD_append] <;> simp

theorem encodeTrap_fixed (u8 : Byte) :
    encodeTrap u8 &&& 0xF000 = 15#4 ++ 0#12 := by
  apply BitVec.eq_of_getLsbD_eq
  intro b hb
  interval_cases b <;> simp only [encodeTrap, BitVec.getLsbD_and, BitVec.getLsbD_append] <;> simp

theorem encodeRegImm6_fixed (op : BitVec 4) (d s : RegIdx) (imm6 : BitVec 6) :
    encodeRegImm6 op d s imm6 &&& 0xF000 = op ++ 0#12 := by
  apply BitVec.eq_of_getLsbD_eq
  intro b hb
  interval_cases b <;> simp only [encodeRegImm6, BitVec.getLsbD_and, BitVec.getLsbD_append] <;> simp

/-- The fixed bits of ADDI and ANDI, the mode bit being 1. -/
theorem encodeRegImm6_mode_fixed (op : BitVec 4) (d s : RegIdx) (imm6 : BitVec 6) (h : imm6.getLsbD 5 = true) :
    encodeRegImm6 op d s imm6 &&& 0xF020 = op ++ 0#6 ++ 1#1 ++ 0#5 := by
  apply BitVec.eq_of_getLsbD_eq
  intro b hb
  interval_cases b <;> simp only [encodeRegImm6, BitVec.getLsbD_and, BitVec.getLsbD_append] <;> simp_all

/-! ### One lemma per constructor -/

theorem EncodesOwnRow.nop : EncodesOwnRow.Statement .nop :=
  encodesOwnRow_of ⟨"NOP", 0x0000, 0xFE00⟩ (by decide) rfl (encodeBranch_fixed 0b000#3 0#9)

theorem EncodesOwnRow.brp (imm9 : BitVec 9) : EncodesOwnRow.Statement (.brp imm9) :=
  encodesOwnRow_of ⟨"BRp", 0x0200, 0xFE00⟩ (by decide) rfl (encodeBranch_fixed 0b001#3 imm9)

theorem EncodesOwnRow.brz (imm9 : BitVec 9) : EncodesOwnRow.Statement (.brz imm9) :=
  encodesOwnRow_of ⟨"BRz", 0x0400, 0xFE00⟩ (by decide) rfl (encodeBranch_fixed 0b010#3 imm9)

theorem EncodesOwnRow.brzp (imm9 : BitVec 9) : EncodesOwnRow.Statement (.brzp imm9) :=
  encodesOwnRow_of ⟨"BRzp", 0x0600, 0xFE00⟩ (by decide) rfl (encodeBranch_fixed 0b011#3 imm9)

theorem EncodesOwnRow.brn (imm9 : BitVec 9) : EncodesOwnRow.Statement (.brn imm9) :=
  encodesOwnRow_of ⟨"BRn", 0x0800, 0xFE00⟩ (by decide) rfl (encodeBranch_fixed 0b100#3 imm9)

theorem EncodesOwnRow.brnp (imm9 : BitVec 9) : EncodesOwnRow.Statement (.brnp imm9) :=
  encodesOwnRow_of ⟨"BRnp", 0x0A00, 0xFE00⟩ (by decide) rfl (encodeBranch_fixed 0b101#3 imm9)

theorem EncodesOwnRow.brnz (imm9 : BitVec 9) : EncodesOwnRow.Statement (.brnz imm9) :=
  encodesOwnRow_of ⟨"BRnz", 0x0C00, 0xFE00⟩ (by decide) rfl (encodeBranch_fixed 0b110#3 imm9)

theorem EncodesOwnRow.brnzp (imm9 : BitVec 9) : EncodesOwnRow.Statement (.brnzp imm9) :=
  encodesOwnRow_of ⟨"BRnzp", 0x0E00, 0xFE00⟩ (by decide) rfl (encodeBranch_fixed 0b111#3 imm9)

theorem EncodesOwnRow.add (d : RegIdx) (s : RegIdx) (t : RegIdx) : EncodesOwnRow.Statement (.add d s t) :=
  encodesOwnRow_of ⟨"ADD", 0x1000, 0xF038⟩ (by decide) rfl (encodeAr_fixed 0b0001#4 d s 0b00#2 t)

theorem EncodesOwnRow.mul (d : RegIdx) (s : RegIdx) (t : RegIdx) : EncodesOwnRow.Statement (.mul d s t) :=
  encodesOwnRow_of ⟨"MUL", 0x1008, 0xF038⟩ (by decide) rfl (encodeAr_fixed 0b0001#4 d s 0b01#2 t)

theorem EncodesOwnRow.sub (d : RegIdx) (s : RegIdx) (t : RegIdx) : EncodesOwnRow.Statement (.sub d s t) :=
  encodesOwnRow_of ⟨"SUB", 0x1010, 0xF038⟩ (by decide) rfl (encodeAr_fixed 0b0001#4 d s 0b10#2 t)

theorem EncodesOwnRow.div (d : RegIdx) (s : RegIdx) (t : RegIdx) : EncodesOwnRow.Statement (.div d s t) :=
  encodesOwnRow_of ⟨"DIV", 0x1018, 0xF038⟩ (by decide) rfl (encodeAr_fixed 0b0001#4 d s 0b11#2 t)

theorem EncodesOwnRow.addi (d : RegIdx) (s : RegIdx) (imm6 : BitVec 6) : EncodesOwnRow.Statement (.addi d s imm6) := fun h =>
  encodesOwnRow_of ⟨"ADDI", 0x1020, 0xF020⟩ (by decide) rfl (encodeRegImm6_mode_fixed 0b0001#4 d s imm6 h) h

theorem EncodesOwnRow.cmp (d : RegIdx) (t : RegIdx) : EncodesOwnRow.Statement (.cmp d t) :=
  encodesOwnRow_of ⟨"CMP", 0x2000, 0xF180⟩ (by decide) rfl (encodeCr_fixed d 0b00#2 t)

theorem EncodesOwnRow.cmpu (d : RegIdx) (t : RegIdx) : EncodesOwnRow.Statement (.cmpu d t) :=
  encodesOwnRow_of ⟨"CMPU", 0x2080, 0xF180⟩ (by decide) rfl (encodeCr_fixed d 0b01#2 t)

theorem EncodesOwnRow.cmpi (d : RegIdx) (imm6 : BitVec 6) : EncodesOwnRow.Statement (.cmpi d imm6) :=
  encodesOwnRow_of ⟨"CMPI", 0x2100, 0xF180⟩ (by decide) rfl (encodeCi_fixed d 0b10#2 imm6)

theorem EncodesOwnRow.cmpiu (d : RegIdx) (imm6 : BitVec 6) : EncodesOwnRow.Statement (.cmpiu d imm6) :=
  encodesOwnRow_of ⟨"CMPIU", 0x2180, 0xF180⟩ (by decide) rfl (encodeCi_fixed d 0b11#2 imm6)

theorem EncodesOwnRow.jsrr (s : RegIdx) (imm6 : BitVec 6) : EncodesOwnRow.Statement (.jsrr s imm6) :=
  encodesOwnRow_of ⟨"JSRR", 0x4000, 0xF800⟩ (by decide) rfl (encodeJr_fixed 0b0100#4 s imm6)

theorem EncodesOwnRow.jsr (imm11 : BitVec 11) : EncodesOwnRow.Statement (.jsr imm11) :=
  encodesOwnRow_of ⟨"JSR", 0x4800, 0xF800⟩ (by decide) rfl (encodeJ11_fixed 0b0100#4 imm11)

theorem EncodesOwnRow.and (d : RegIdx) (s : RegIdx) (t : RegIdx) : EncodesOwnRow.Statement (.and d s t) :=
  encodesOwnRow_of ⟨"AND", 0x5000, 0xF038⟩ (by decide) rfl (encodeAr_fixed 0b0101#4 d s 0b00#2 t)

theorem EncodesOwnRow.not (d : RegIdx) (s : RegIdx) : EncodesOwnRow.Statement (.not d s) :=
  encodesOwnRow_of ⟨"NOT", 0x5008, 0xF038⟩ (by decide) rfl (encodeAr_fixed 0b0101#4 d s 0b01#2 0b000#3)

theorem EncodesOwnRow.or (d : RegIdx) (s : RegIdx) (t : RegIdx) : EncodesOwnRow.Statement (.or d s t) :=
  encodesOwnRow_of ⟨"OR", 0x5010, 0xF038⟩ (by decide) rfl (encodeAr_fixed 0b0101#4 d s 0b10#2 t)

theorem EncodesOwnRow.xor (d : RegIdx) (s : RegIdx) (t : RegIdx) : EncodesOwnRow.Statement (.xor d s t) :=
  encodesOwnRow_of ⟨"XOR", 0x5018, 0xF038⟩ (by decide) rfl (encodeAr_fixed 0b0101#4 d s 0b11#2 t)

theorem EncodesOwnRow.andi (d : RegIdx) (s : RegIdx) (imm6 : BitVec 6) : EncodesOwnRow.Statement (.andi d s imm6) := fun h =>
  encodesOwnRow_of ⟨"ANDI", 0x5020, 0xF020⟩ (by decide) rfl (encodeRegImm6_mode_fixed 0b0101#4 d s imm6 h) h

theorem EncodesOwnRow.ldr (d : RegIdx) (s : RegIdx) (imm6 : BitVec 6) : EncodesOwnRow.Statement (.ldr d s imm6) :=
  encodesOwnRow_of ⟨"LDR", 0x6000, 0xF000⟩ (by decide) rfl (encodeRegImm6_fixed 0b0110#4 d s imm6)

theorem EncodesOwnRow.str (d : RegIdx) (s : RegIdx) (imm6 : BitVec 6) : EncodesOwnRow.Statement (.str d s imm6) :=
  encodesOwnRow_of ⟨"STR", 0x7000, 0xF000⟩ (by decide) rfl (encodeRegImm6_fixed 0b0111#4 d s imm6)

theorem EncodesOwnRow.rti : EncodesOwnRow.Statement .rti :=
  encodesOwnRow_of ⟨"RTI", 0x8000, 0xF000⟩ (by decide) rfl (by decide)

theorem EncodesOwnRow.const (d : RegIdx) (imm9 : BitVec 9) : EncodesOwnRow.Statement (.const d imm9) :=
  encodesOwnRow_of ⟨"CONST", 0x9000, 0xF000⟩ (by decide) rfl (encodeConst_fixed d imm9)

theorem EncodesOwnRow.sll (d : RegIdx) (s : RegIdx) (u4 : BitVec 4) : EncodesOwnRow.Statement (.sll d s u4) :=
  encodesOwnRow_of ⟨"SLL", 0xA000, 0xF030⟩ (by decide) rfl (encodeSh_fixed d s 0b00#2 u4)

theorem EncodesOwnRow.sra (d : RegIdx) (s : RegIdx) (u4 : BitVec 4) : EncodesOwnRow.Statement (.sra d s u4) :=
  encodesOwnRow_of ⟨"SRA", 0xA010, 0xF030⟩ (by decide) rfl (encodeSh_fixed d s 0b01#2 u4)

theorem EncodesOwnRow.srl (d : RegIdx) (s : RegIdx) (u4 : BitVec 4) : EncodesOwnRow.Statement (.srl d s u4) :=
  encodesOwnRow_of ⟨"SRL", 0xA020, 0xF030⟩ (by decide) rfl (encodeSh_fixed d s 0b10#2 u4)

theorem EncodesOwnRow.mod (d : RegIdx) (s : RegIdx) (t : RegIdx) : EncodesOwnRow.Statement (.mod d s t) :=
  encodesOwnRow_of ⟨"MOD", 0xA030, 0xF030⟩ (by decide) rfl (encodeMod_fixed d s t)

theorem EncodesOwnRow.jmpr (s : RegIdx) (imm6 : BitVec 6) : EncodesOwnRow.Statement (.jmpr s imm6) :=
  encodesOwnRow_of ⟨"JMPR", 0xC000, 0xF800⟩ (by decide) rfl (encodeJr_fixed 0b1100#4 s imm6)

theorem EncodesOwnRow.jmp (imm11 : BitVec 11) : EncodesOwnRow.Statement (.jmp imm11) :=
  encodesOwnRow_of ⟨"JMP", 0xC800, 0xF800⟩ (by decide) rfl (encodeJ11_fixed 0b1100#4 imm11)

theorem EncodesOwnRow.hiconst (d : RegIdx) (u8 : Byte) : EncodesOwnRow.Statement (.hiconst d u8) :=
  encodesOwnRow_of ⟨"HICONST", 0xD000, 0xF000⟩ (by decide) rfl (encodeHc_fixed d u8)

theorem EncodesOwnRow.trap (u8 : Byte) : EncodesOwnRow.Statement (.trap u8) :=
  encodesOwnRow_of ⟨"TRAP", 0xF000, 0xF000⟩ (by decide) rfl (encodeTrap_fixed u8)

theorem EncodesOwnRow.undefOp3 : EncodesOwnRow.Statement .undefOp3 :=
  encodesOwnRow_of ⟨"UNDEF_OP3", 0x3000, 0xF000⟩ (by decide) rfl (by decide)

theorem EncodesOwnRow.undefOp11 : EncodesOwnRow.Statement .undefOp11 :=
  encodesOwnRow_of ⟨"UNDEF_OP11", 0xB000, 0xF000⟩ (by decide) rfl (by decide)

theorem EncodesOwnRow.undefOp14 : EncodesOwnRow.Statement .undefOp14 :=
  encodesOwnRow_of ⟨"UNDEF_OP14", 0xE000, 0xF000⟩ (by decide) rfl (by decide)

end Sys2Proof.Laws
end

