-- ==== Sys2Proof/Machine/Assembly.lean ====
section
/-! DEFINITION. The assembler syntax (spec/30_encoding.md R85): the mnemonic, then the operands separated by commas, the destination
first, registers `R0` to `R7`, immediates after `#`. Targets are written as immediates (`BRc #imm9`, `JSR #imm11`), since a
label is the assembler's own. Nothing in the machine depends on it (log 16). -/

namespace Sys2Proof.Machine

/-- `R0` .. `R7`. -/
def regText (r : RegIdx) : String := "R" ++ toString r.toNat

/-- An immediate in decimal, after `#`. -/
def immText (n : Int) : String := "#" ++ toString n

/-- A mnemonic and its operands. -/
def lineText (op : String) (operands : List String) : String :=
  match operands with
  | [] => op
  | _ => op ++ " " ++ String.intercalate ", " operands

/-- `OP Rd, Rs, Rt`. -/
def threeRegText (op : String) (d s t : RegIdx) : String := lineText op [regText d, regText s, regText t]

/-- `OP Rd, Rs, #imm`. -/
def twoRegImmText (op : String) (d s : RegIdx) (n : Int) : String :=
  lineText op [regText d, regText s, immText n]

/-- `JSRR Rs` and `JMPR Rs`, with the offset after it where it is not zero. -/
def indirectText (op : String) (s : RegIdx) (imm6 : BitVec 6) : String :=
  if imm6 = 0 then lineText op [regText s] else lineText op [regText s, immText imm6.toInt]

/-- The assembly text of an instruction; an unassigned opcode has none (R85). -/
def assembly (p : Params) (i : Instr) : Option String :=
  match i with
  | .nop => some (lineText "NOP" [])
  | .brp imm9 => some (lineText "BRp" [immText imm9.toInt])
  | .brz imm9 => some (lineText "BRz" [immText imm9.toInt])
  | .brzp imm9 => some (lineText "BRzp" [immText imm9.toInt])
  | .brn imm9 => some (lineText "BRn" [immText imm9.toInt])
  | .brnp imm9 => some (lineText "BRnp" [immText imm9.toInt])
  | .brnz imm9 => some (lineText "BRnz" [immText imm9.toInt])
  | .brnzp imm9 => some (lineText "BRnzp" [immText imm9.toInt])
  | .add d s t => some (threeRegText "ADD" d s t)
  | .mul d s t => some (threeRegText "MUL" d s t)
  | .sub d s t => some (threeRegText "SUB" d s t)
  | .div d s t => some (threeRegText "DIV" d s t)
  | .addi d s imm6 => some (twoRegImmText "ADD" d s (aluImm p.aluImmWidth imm6).toInt)
  | .cmp d t => some (lineText "CMP" [regText d, regText t])
  | .cmpu d t => some (lineText "CMPU" [regText d, regText t])
  | .cmpi d imm6 => some (lineText "CMPI" [regText d, immText imm6.toInt])
  | .cmpiu d imm6 => some (lineText "CMPIU" [regText d, immText imm6.toNat])
  | .jsrr s imm6 => some (indirectText "JSRR" s imm6)
  | .jsr imm11 => some (lineText "JSR" [immText imm11.toInt])
  | .and d s t => some (threeRegText "AND" d s t)
  | .not d s => some (lineText "NOT" [regText d, regText s])
  | .or d s t => some (threeRegText "OR" d s t)
  | .xor d s t => some (threeRegText "XOR" d s t)
  | .andi d s imm6 => some (twoRegImmText "AND" d s (aluImm p.aluImmWidth imm6).toInt)
  | .ldr d s imm6 => some (twoRegImmText "LDR" d s imm6.toInt)
  | .str d s imm6 => some (twoRegImmText "STR" d s imm6.toInt)
  | .rti => some (lineText "RTI" [])
  | .const d imm9 => some (lineText "CONST" [regText d, immText imm9.toInt])
  | .sll d s u4 => some (twoRegImmText "SLL" d s u4.toNat)
  | .sra d s u4 => some (twoRegImmText "SRA" d s u4.toNat)
  | .srl d s u4 => some (twoRegImmText "SRL" d s u4.toNat)
  | .mod d s t => some (threeRegText "MOD" d s t)
  | .jmpr s imm6 => some (indirectText "JMPR" s imm6)
  | .jmp imm11 => some (lineText "JMP" [immText imm11.toInt])
  | .hiconst d u8 => some (lineText "HICONST" [regText d, immText u8.toNat])
  | .trap u8 => some (lineText "TRAP" [immText u8.toNat])
  | .undefOp3 => none
  | .undefOp11 => none
  | .undefOp14 => none

end Sys2Proof.Machine
end

