-- ==== Sys2Proof/Tests/Slice0.lean ====
section
/-! SUPPORT. Tests: the well-formedness checks, every constructor's decoding from a word written out bit by bit from
spec/30_encoding.md R75, one-step vectors of spec/95_test_vectors.md (each names its vector), and for every statement with
hypotheses a state and operands that meet them. -/

namespace Sys2Proof.Machine

/-! ## Well-formedness: each check refuses an ill-formed term -/

theorem test_wellFormed_addi : (Instr.addi 1 1 0b011111).wellFormed = false ∧ (Instr.addi 1 1 0b111111).wellFormed = true := by
  decide

theorem test_wellFormed_andi : (Instr.andi 2 3 0b010000).wellFormed = false ∧ (Instr.andi 2 3 0b110000).wellFormed = true := by
  decide

/-! ## Decoding: the words are written from the layouts of R75 and the codes of R78 to R81 -/

theorem test_decode_branch :
    decode 0b0000000101010101 = .nop ∧ decode 0b0000001000000010 = .brp 2 ∧
    decode 0b0000010000000011 = .brz 3 ∧ decode 0b0000011000000101 = .brzp 5 ∧
    decode 0b0000100111111110 = .brn 0b111111110 ∧ decode 0b0000101000010000 = .brnp 16 ∧
    decode 0b0000110000010000 = .brnz 16 ∧ decode 0b0000111111111111 = .brnzp 0b111111111 := by decide

theorem test_decode_arithmetic :
    decode 0b0001011001000010 = .add 3 1 2 ∧ decode 0b0001011001001010 = .mul 3 1 2 ∧
    decode 0b0001011001010010 = .sub 3 1 2 ∧ decode 0b0001011001011010 = .div 3 1 2 ∧
    decode 0b0001001001100011 = .addi 1 1 0b100011 ∧ decode 0b0001001001111011 = .addi 1 1 0b111011 := by decide

theorem test_decode_compare :
    decode 0b0010001000000010 = .cmp 1 2 ∧ decode 0b0010001001111010 = .cmp 1 2 ∧
    decode 0b0010001010000010 = .cmpu 1 2 ∧ decode 0b0010001101111111 = .cmpi 1 0b111111 ∧
    decode 0b0010001110100000 = .cmpiu 1 0b100000 := by decide

theorem test_decode_subroutine :
    decode 0b0100011111000010 = .jsrr 7 2 ∧ decode 0b0100110000000000 = .jsr 0b10000000000 := by decide

theorem test_decode_logical :
    decode 0b0101011001000010 = .and 3 1 2 ∧ decode 0b0101011001001111 = .not 3 1 ∧
    decode 0b0101011001010010 = .or 3 1 2 ∧ decode 0b0101011001011010 = .xor 3 1 2 ∧
    decode 0b0101010011110000 = .andi 2 3 0b110000 := by decide

theorem test_decode_load_store :
    decode 0b0110011010111111 = .ldr 3 2 0b111111 ∧ decode 0b0111011010000101 = .str 3 2 5 := by decide

theorem test_decode_constant :
    decode 0b1001100100000000 = .const 4 0b100000000 ∧ decode 0b1101010110000000 = .hiconst 2 0x80 ∧
    decode 0b1101010010000000 = .hiconst 2 0x80 := by decide

theorem test_decode_shift :
    decode 0b1010011001001111 = .sll 3 1 15 ∧ decode 0b1010011001010100 = .sra 3 1 4 ∧
    decode 0b1010011001101111 = .srl 3 1 15 ∧ decode 0b1010011001111010 = .mod 3 1 2 := by decide

theorem test_decode_jump :
    decode 0b1100000101111110 = .jmpr 5 0b111110 ∧ decode 0b1100111011111011 = .jmp 0b11011111011 := by decide

theorem test_decode_trap :
    decode 0b1000111111111111 = .rti ∧ decode 0b1111111110101011 = .trap 0xAB ∧
    decode 0b0011111111111111 = .undefOp3 ∧ decode 0b1011000100100011 = .undefOp11 ∧
    decode 0b1110000000000000 = .undefOp14 := by decide

theorem test_encode_words :
    encode (.add 3 1 2) = 0x1642 ∧ encode (.cmpiu 1 63) = 0x23BF ∧ encode (.jsrr 5 0) = 0x4140 ∧
    encode (.ldr 3 2 0b111111) = 0x66BF ∧ encode (.hiconst 2 0x80) = 0xD480 ∧ encode (.trap 0xAB) = 0xF0AB := by decide

theorem test_decodeTableWord :
    decodeTableWord 16 0xF0AB = some (.trap 0xAB) ∧ decodeTableWord 32 0xF0AB = none := by decide

/-! ## Assembly text: the source's three lines (R85), and an unassigned opcode -/

theorem test_assembly_source :
    assembly defaultParams (decode 0x9005) = some "CONST R0, #5" ∧
    assembly defaultParams (decode 0x9203) = some "CONST R1, #3" ∧
    assembly defaultParams (decode 0x1401) = some "ADD R2, R0, R1" ∧
    assembly defaultParams (decode 0xB123) = none := by decide

theorem test_assembly_immediate :
    assembly defaultParams (decode 0x127F) = some "ADD R1, R1, #-1" ∧
    assembly defaultParams (decode 0x41C2) = some "JSRR R7, #2" := by decide

/-! ## One step -/

/-- A running core at 0x8200 with the instruction word there. -/
def boot (regs : Vector Word 8) (status : Word) (insn : Nat) : State :=
  State.withFetchWord { State.reset with regs := regs, status := status } 16 insn

/-- `x[r]`, `status` and `pc` after one step. -/
def seen (r : RegIdx) (s : State) : Option (Word × Word × Word) :=
  match step s with
  | .next t => some (readReg t r, t.status, t.pc)
  | .fault _ => none
  | .refused _ => none

/-- The snapshot after one step. -/
def seenSig (s : State) : Option Signals :=
  match step s with
  | .next t => some t.sig
  | .fault _ => none
  | .refused _ => none

/-- The word at `a` after one step. -/
def seenMem (a : Word) (s : State) : Option Word :=
  match step s with
  | .next t => some (memRead t a)
  | .fault _ => none
  | .refused _ => none

/-- V-AR-1. -/
theorem test_add : seen 3 (boot #v[0, 0x7FFF, 1, 0, 0, 0, 0, 0] 0 0x1642) = some (0x8000, 4, 0x8201) := by decide
/-- V-AR-1, the snapshot. -/
theorem test_add_sig : seenSig (boot #v[0, 0x7FFF, 1, 0, 0, 0, 0, 0] 0 0x1642) =
    some ⟨true, 3, 0x8000, true, 4, false, 0, 0⟩ := by decide
/-- V-AR-4. -/
theorem test_mul_low_half : seen 3 (boot #v[0, 0x100, 0x100, 0, 0, 0, 0, 0] 0 0x164A) = some (0, 2, 0x8201) := by decide
/-- V-AR-7. -/
theorem test_mul_negative : seen 3 (boot #v[0, 0xFFFD, 5, 0, 0, 0, 0, 0] 0 0x164A) = some (0xFFF1, 4, 0x8201) := by decide
/-- V-AR-8. -/
theorem test_sub : seen 3 (boot #v[0, 0x8000, 1, 0, 0, 0, 0, 0] 0 0x1652) = some (0x7FFF, 1, 0x8201) := by decide
/-- V-AR-10, signed. -/
theorem test_div_signed : seen 3 (boot #v[0, 0xFFF9, 2, 0, 0, 0, 0, 0] 0 0x165A) = some (0xFFFD, 4, 0x8201) := by decide
/-- V-AR-13, unsigned. -/
theorem test_div_unsigned :
    seen 3 { boot #v[0, 0x8000, 0xFFFF, 0, 0, 0, 0, 0] 0 0x165A with params := ⟨.six, .unsigned, true⟩ }
      = some (0, 2, 0x8201) := by decide
/-- V-AR-18, width 6. -/
theorem test_addi_six : seen 1 (boot #v[0, 0x40, 0, 0, 0, 0, 0, 0] 0 0x1263) = some (0x23, 1, 0x8201) := by decide
/-- V-AR-18, width 5. -/
theorem test_addi_five :
    seen 1 { boot #v[0, 0x40, 0, 0, 0, 0, 0, 0] 0 0x1263 with params := ⟨.five, .signed, true⟩ }
      = some (0x43, 1, 0x8201) := by decide
/-- V-LG-1. -/
theorem test_and : seen 3 (boot #v[0, 0xFF, 0xF0F, 0, 0, 0, 0, 0] 0 0x5642) = some (0xF, 1, 0x8201) := by decide
/-- V-LG-5. -/
theorem test_not : seen 3 (boot #v[0, 0x5555, 0, 0, 0, 0, 0, 0x1234] 0 0x564F) = some (0xAAAA, 4, 0x8201) := by decide
/-- V-LG-6. -/
theorem test_or : seen 3 (boot #v[0, 0x1200, 0x34, 0, 0, 0, 0, 0] 0 0x5652) = some (0x1234, 1, 0x8201) := by decide
/-- V-LG-8. -/
theorem test_xor : seen 3 (boot #v[0, 0xFFFF, 0xFF, 0, 0, 0, 0, 0] 0 0x565A) = some (0xFF00, 4, 0x8201) := by decide
/-- V-LG-12, width 6. -/
theorem test_andi_six : seen 3 (boot #v[0, 0xFFFF, 0, 0, 0, 0, 0, 0] 0 0x5663) = some (0xFFE3, 4, 0x8201) := by decide
/-- V-LG-12, width 5. -/
theorem test_andi_five :
    seen 3 { boot #v[0, 0xFFFF, 0, 0, 0, 0, 0, 0] 0 0x5663 with params := ⟨.five, .signed, true⟩ }
      = some (3, 1, 0x8201) := by decide
/-- V-SH-3. -/
theorem test_sll : seen 3 (boot #v[0, 0x8001, 0, 0, 0, 0, 0, 0] 0 0xA641) = some (2, 1, 0x8201) := by decide
/-- V-SH-5. -/
theorem test_sra : seen 3 (boot #v[0, 0x8000, 0, 0, 0, 0, 0, 0] 0 0xA65F) = some (0xFFFF, 4, 0x8201) := by decide
/-- V-SH-8. -/
theorem test_srl : seen 3 (boot #v[0, 0x8000, 0, 0, 0, 0, 0, 0] 0 0xA66F) = some (1, 1, 0x8201) := by decide
/-- V-SH-12. -/
theorem test_mod_signed : seen 3 (boot #v[0, 0xFFF9, 0xFFFE, 0, 0, 0, 0, 0] 0 0xA672) = some (0xFFFF, 4, 0x8201) := by decide
/-- V-SH-14 (L1-3). -/
theorem test_mod_zero : seen 3 (boot #v[0, 7, 0, 0, 0, 0, 0, 0] 0 0xA672) = some (0, 2, 0x8201) := by decide
/-- V-CM-2. -/
theorem test_cmp_exact : seen 1 (boot #v[0, 0x7FFF, 0x8000, 0, 0, 0, 0, 0] 8 0x2202) = some (0x7FFF, 9, 0x8201) := by decide
/-- V-CM-3. -/
theorem test_cmpu : seen 1 (boot #v[0, 0x7FFF, 0x8000, 0, 0, 0, 0, 0] 8 0x2282) = some (0x7FFF, 0xC, 0x8201) := by decide
/-- V-CM-11. -/
theorem test_cmpi : seen 1 (boot #v[0, 0xFFE0, 0, 0, 0, 0, 0, 0] 8 0x2320) = some (0xFFE0, 0xA, 0x8201) := by decide
/-- V-CM-16. -/
theorem test_cmpiu : seen 1 (boot #v[0, 0xFFE0, 0, 0, 0, 0, 0, 0] 8 0x23A0) = some (0xFFE0, 9, 0x8201) := by decide
/-- V-CN-4. -/
theorem test_const : seen 0 (boot #v[0, 0, 0, 0, 0, 0, 0, 0] 0 0x9100) = some (0xFF00, 4, 0x8201) := by decide
/-- V-CN-10. -/
theorem test_hiconst : seen 2 (boot #v[0, 0, 0x1234, 0, 0, 0, 0, 0] 0 0xD580) = some (0x8034, 4, 0x8201) := by decide
/-- Taken table of section L2, condition 0, P set. -/
theorem test_nop : seen 0 (boot #v[0, 0, 0, 0, 0, 0, 0, 0] 1 0x0010) = some (0, 1, 0x8201) := by decide
/-- V-BR-1. -/
theorem test_brp : seen 0 (boot #v[0, 0, 0, 0, 0, 0, 0, 0] 1 0x0202) = some (0, 1, 0x8203) := by decide
/-- V-BR-2. -/
theorem test_brz : seen 0 (boot #v[0, 0, 0, 0, 0, 0, 0, 0] 1 0x0403) = some (0, 1, 0x8201) := by decide
/-- R193's example. -/
theorem test_brzp : seen 0 (boot #v[0, 0, 0, 0, 0, 0, 0, 0] 2 0x0605) = some (0, 2, 0x8206) := by decide
/-- Taken table of section L2, condition 4, N set. -/
theorem test_brn : seen 0 (boot #v[0, 0, 0, 0, 0, 0, 0, 0] 4 0x0810) = some (0, 4, 0x8211) := by decide
/-- R195's example. -/
theorem test_brnp : seen 0 (boot #v[0, 0, 0, 0, 0, 0, 0, 0] 2 0x0A10) = some (0, 2, 0x8201) := by decide
/-- R196's example. -/
theorem test_brnz : seen 0 (boot #v[0, 0, 0, 0, 0, 0, 0, 0] 4 0x0C10) = some (0, 4, 0x8211) := by decide
/-- V-BR-4, no flag set. -/
theorem test_brnzp : seen 0 (boot #v[0, 0, 0, 0, 0, 0, 0, 0] 0 0x0F00) = some (0, 0, 0x8101) := by decide
/-- V-JP-3. -/
theorem test_jsr : seen 7 (boot #v[0, 0, 0, 0, 0, 0, 0, 0] 0 0x4C00) = some (0x8201, 4, 0x7E01) := by decide
/-- V-JP-10: the link is written before the target is read. -/
theorem test_jsrr_link : seen 7 (boot #v[0, 0, 0, 0, 0, 0, 0, 0x1234] 0 0x41C2) = some (0x8201, 4, 0x8203) := by decide
/-- V-JP-13. -/
theorem test_jsrr_wraps : seen 7 (boot #v[0, 0x10, 0, 0, 0, 0, 0, 0] 0 0x4060) = some (0x8201, 4, 0xFFF0) := by decide
/-- V-JP-17. -/
theorem test_jmp : seen 0 (boot #v[0, 0, 0, 0, 0, 0, 0, 0] 0 0xCBFF) = some (0, 0, 0x8600) := by decide
/-- V-JP-21. -/
theorem test_jmpr : seen 1 (boot #v[0, 0xFFFF, 0, 0, 0, 0, 0, 0] 0 0xC041) = some (0xFFFF, 0, 0) := by decide
/-- V-MM-1. -/
theorem test_ldr : seenSig (placeWord (boot #v[0, 0, 0x4001, 0, 0, 0, 0, 0] 0 0x66BF) 0x4000 0x8001) =
    some ⟨true, 3, 0x8001, true, 4, false, 0x4000, 0x8001⟩ := by decide
/-- V-MM-4: the base is read before it is overwritten. -/
theorem test_ldr_base : seen 2 (placeWord (boot #v[0, 0, 0x4000, 0, 0, 0, 0, 0] 0 0x6480) 0x4000 0x7FFF) =
    some (0x7FFF, 1, 0x8201) := by decide
/-- V-MM-6: the address wraps. -/
theorem test_str : seenMem 0xFFFF (boot #v[0, 0, 0xBEEF, 0, 0, 0, 0, 0] 0 0x747F) = some 0xBEEF := by decide
/-- V-MM-5, the snapshot. -/
theorem test_str_sig : seenSig (boot #v[0, 0, 0x4000, 0x1234, 0, 0, 0, 0] 0 0x7685) =
    some ⟨false, 0, 0, false, 0, true, 0x4005, 0x1234⟩ := by decide
/-- L1-5. -/
theorem test_trap : seen 7 (boot #v[0, 0, 0, 0, 0, 0, 0, 0] 0 0xF0AB) = some (0x8201, 0xC, 0x80AB) := by decide
/-- L1-5, `TRAP_SETS_FLAGS` false. -/
theorem test_trap_keeps_flags :
    seen 7 { boot #v[0, 0, 0, 0, 0, 0, 0, 0] 0 0xF0AB with params := ⟨.six, .signed, false⟩ }
      = some (0x8201, 8, 0x80AB) := by decide
/-- V-TR-8. -/
theorem test_rti : seen 7 (boot #v[0, 0, 0, 0, 0, 0, 0, 0x123] 0xC 0x8FFF) = some (0x123, 0, 0x123) := by decide
/-- V-UD-2, V-UD-3, V-UD-4. -/
theorem test_undefOp3 : seen 1 (boot #v[0, 5, 0, 0, 0, 0, 0, 0] 0xC 0x3FFF) = some (5, 0xC, 0x8201) := by decide
theorem test_undefOp11 : seen 1 (boot #v[0, 5, 0, 0, 0, 0, 0, 0] 0xC 0xB123) = some (5, 0xC, 0x8201) := by decide
theorem test_undefOp14 : seen 1 (boot #v[0, 5, 0, 0, 0, 0, 0, 0] 0xC 0xEFFF) = some (5, 0xC, 0x8201) := by decide
/-- L1-7: the sentinel's word is not executed and no record is put out. -/
theorem test_sentinel :
    (match step (State.withFetchWord { State.reset with pc := 0x80FF } 16 0x9005) with
      | .next t => t.halted && t.trace == [] && t.pc == 0x80FF && readReg t 0 == 0
      | .fault _ => false
      | .refused _ => false) = true := by decide

/-! ## Witnesses: each shows that the hypotheses of a statement can be met -/

/-- A state that runs the word next. -/
def at8200 (insn : Nat) : State := boot #v[0, 0x8200, 0x9207, 0, 0, 0, 0, 0] 0 insn

/-- A halted core at the sentinel. -/
def haltedCore : State := { State.reset with run := .halted, pc := 0x80FF }

/-- A running core at the sentinel. -/
def sentinelCore : State := { State.reset with pc := 0x80FF }

theorem witness_DecodeOfEncodeIsTheInstruction : (Instr.andi 7 7 0b100000).wellFormed = true := by decide

theorem witness_IgnoredBitsNeverMatter :
    (0x0078 : Word) &&& ~~~(decode 0x2202).ignoredBits = 0 ∧ (0x0FFF : Word) &&& ~~~(decode 0xE000).ignoredBits = 0 := by decide

theorem witness_FieldsExtendAsTheSpecSays : 4 ∈ [4, 5, 6, 9, 11] ∧ 11 ∈ [4, 5, 6, 9, 11] ∧ 0 < 16 ∧ 15 < 16 := by decide

theorem witness_SetFlags_high_bit : 3 ≤ 3 := by decide

theorem witness_TakenFollowsTheConditionTable : (1 : BitVec 3) ≠ 0 ∧ (1 : BitVec 3) ≠ 7 ∧ (6 : BitVec 3) ≠ 0 ∧ (6 : BitVec 3) ≠ 7 := by
  decide

theorem witness_DivMod_zero : readReg (at8200 0x165A) 3 = 0 := by decide

theorem witness_DivMod_signed :
    readReg (at8200 0x165A) 2 ≠ 0 ∧ (at8200 0x165A).params.divSignedness = .signed := by decide

theorem witness_DivMod_unsigned :
    readReg { at8200 0x165A with params := ⟨.six, .unsigned, true⟩ } 2 ≠ 0 ∧
    ({ at8200 0x165A with params := ⟨.six, .unsigned, true⟩ } : State).params.divSignedness = .unsigned := by decide

theorem witness_QuotientTimesDivisorPlusRemainder :
    (0xFFFF : Word) ≠ 0 ∧ ((0x8000 : Word) = 0x8000 ∧ (0xFFFF : Word) = 0xFFFF) ∧ ¬((0x8000 : Word) = 0x8000 ∧ (1 : Word) = 0xFFFF) := by
  decide

theorem witness_bit_index : 0 < 16 ∧ 15 < 16 := by decide

theorem witness_StoreWritesTheWordAtBasePlusOffset :
    (0 : Nat) ≠ lowKey 0x8200 ∧ (0 : Nat) ≠ highKey 0x8200 ∧ lowKey 0x8201 ≠ highKey 0x8200 ∧ (0x8201 : Word) ≠ 0x8200 := by decide

theorem witness_Trap_flags_kept_or_set :
    State.reset.params.trapSetsFlags = true ∧
    ({ State.reset with params := ⟨.six, .signed, false⟩ } : State).params.trapSetsFlags = false := by decide

theorem witness_UnassignedOpcodesOnlyAdvance_3 :
    (at8200 0x3FFF).run = .running ∧ (at8200 0x3FFF).pc ≠ 0x80FF ∧ (fetch (at8200 0x3FFF)).toNat / 4096 = 3 := by decide

theorem witness_UnassignedOpcodesOnlyAdvance_11 :
    (at8200 0xB123).run = .running ∧ (at8200 0xB123).pc ≠ 0x80FF ∧ (fetch (at8200 0xB123)).toNat / 4096 = 11 := by decide

theorem witness_UnassignedOpcodesOnlyAdvance_14 :
    (at8200 0xE000).run = .running ∧ (at8200 0xE000).pc ≠ 0x80FF ∧ (fetch (at8200 0xE000)).toNat / 4096 = 14 := by decide

theorem witness_StepRunsTheDecodedInstruction : State.reset.run = .running ∧ State.reset.pc ≠ 0x80FF := by decide

theorem witness_HaltedStepChangesNothing : haltedCore.run = .halted := rfl

theorem witness_RunStateChanges_halts :
    ∃ t, step sentinelCore = .next t ∧ sentinelCore.run = .running := ⟨_, rfl, rfl⟩

theorem witness_RunStateChanges_runs :
    ∃ t, step (at8200 0x1642) = .next t ∧ (at8200 0x1642).run = .running := ⟨_, rfl, rfl⟩

theorem witness_RunStateChanges_stays :
    ∃ t, step haltedCore = .next t ∧ haltedCore.run = .halted := ⟨_, rfl, rfl⟩

theorem witness_ReachingTheSentinelEndsTheRun :
    haltedCore.run = .halted ∧ sentinelCore.run = .running ∧ sentinelCore.pc = 0x80FF := by decide

theorem witness_StepKeepsLegalStates :
    (at8200 0xF0FF).legal = true ∧ ∃ t, step (at8200 0xF0FF) = .next t := ⟨by decide, _, rfl⟩

theorem witness_StepKeepsTheSnapshotMirror :
    (at8200 0x7441).mirrored ∧ ∃ t, step (at8200 0x7441) = .next t :=
  ⟨⟨fun h => absurd h (by decide), fun h => absurd h (by decide), fun h => absurd h (by decide)⟩, _, rfl⟩

theorem witness_DatapathTablesAgree : (at8200 0x41C2).sig = Signals.cleared := rfl

theorem witness_TheModeIsUnobservable :
    SameButMode (at8200 0xF0FF) { at8200 0xF0FF with status := withPriv 0 } ∧
      ∃ t, Host.Core.run Sys2Proof.core 1 (at8200 0xF0FF) = .next t :=
  ⟨⟨rfl, fun b hb => by simp [getLsbD_withPriv, hb, at8200, boot, State.withFetchWord, placeWord]⟩, _, rfl⟩

theorem witness_OnlyTrapAndReturnChangeTheMode_trap :
    ∃ t, exec (.trap 0xFF) State.reset = .next t ∧ ∃ u8, Instr.trap 0xFF = .trap u8 := ⟨_, rfl, _, rfl⟩

theorem witness_OnlyTrapAndReturnChangeTheMode_rti :
    ∃ t, exec .rti State.reset = .next t := ⟨_, rfl⟩

theorem witness_OnlyTrapAndReturnChangeTheMode_other :
    ∃ t, exec (.jsr 0) State.reset = .next t ∧ (∀ u8, Instr.jsr 0 ≠ .trap u8) ∧ Instr.jsr 0 ≠ .rti :=
  ⟨_, rfl, fun _ h => (nomatch h), by decide⟩

theorem witness_OnlyLoadsRead_store :
    ∃ t, exec (.str 1 2 0) State.reset = .next t ∧ ∀ d r imm6, Instr.str 1 2 0 ≠ .ldr d r imm6 :=
  ⟨_, rfl, fun _ _ _ h => (nomatch h)⟩

theorem witness_OnlyStoresWrite_load :
    ∃ t, exec (.ldr 1 2 0) State.reset = .next t ∧ ∀ d r imm6, Instr.ldr 1 2 0 ≠ .str d r imm6 :=
  ⟨_, rfl, fun _ _ _ h => (nomatch h)⟩

theorem witness_MemoryHoldsTheLastStoreOfARun :
    ∃ t, Host.Core.run Sys2Proof.core 1 (at8200 0x7441) = .next t ∧ ∃ u, exec (.ldr 3 1 1) t = .next u := ⟨_, rfl, _, rfl⟩

theorem witness_lastStore_sees_the_store : lastStore 1 (at8200 0x7441) 0x8201 = some 0x9207 := by decide

/-- V-MM-8. -/
theorem witness_TheNextFetchSeesTheStore :
    (at8200 0x7441).executes = true ∧ decode (fetch (at8200 0x7441)) = .str 2 1 1 ∧
    effAddr (at8200 0x7441) 1 1 = (at8200 0x7441).pc + 1 ∧ (at8200 0x7441).pc + 1 ≠ 0x80FF ∧
    ∃ t, step (at8200 0x7441) = .next t := ⟨by decide, by decide, by decide, by decide, _, rfl⟩

theorem witness_ARunPutsOutOneRecordPerExecutedStep :
    ∃ t, Host.Core.run Sys2Proof.core 1 (at8200 0x9005) = .next t := ⟨_, rfl⟩

theorem witness_TheTraceLagsOneStep :
    (at8200 0x9005).executes = true ∧
    ∃ t u v, t.executes = true ∧
      exec (decode (fetch (at8200 0x9005))) { at8200 0x9005 with sig := Signals.cleared } = .next v ∧
      step (at8200 0x9005) = .next t ∧ step t = .next u :=
  ⟨by decide, _, _, _, by decide, rfl, rfl, rfl⟩

theorem witness_TheTraceLags_reset (p : Params) (image : Word → Word) : (resetFrom p image).executes = true := by
  simp [resetFrom, State.executes, haltAddr]

theorem witness_CanonicalMemories :
    Memory.wf (writeWord [(0, 5), (131071, 1)] 0 7) = true ∧ Memory.wf [(0, 7), (131071, 1)] = true ∧
    ∀ a, readWord (writeWord [(0, 5), (131071, 1)] 0 7) a = readWord [(0, 7), (131071, 1)] a :=
  ⟨by decide, by decide, fun _ => rfl⟩

theorem witness_OnlyTheNamedRegisterIsWritten :
    ∃ t, exec (.add 3 1 2) State.reset = .next t ∧ destReg (.add 3 1 2) ≠ some 7 := ⟨_, rfl, by decide⟩

theorem witness_FlagsChange_affecting :
    ∃ t, exec (.trap 0) State.reset = .next t ∧ flagAffecting State.reset.params (.trap 0) = true := ⟨_, rfl, rfl⟩

theorem witness_FlagsChange_rti :
    ∃ t, exec .rti State.reset = .next t ∧ flagAffecting State.reset.params .rti = false := ⟨_, rfl, rfl⟩

theorem witness_FlagsChange_kept :
    ∃ t, exec (.str 1 2 0) State.reset = .next t ∧ flagAffecting State.reset.params (.str 1 2 0) = false := ⟨_, rfl, rfl⟩

theorem witness_TrapToTheSentinelHaltsNextStep :
    (at8200 0xF0FF).executes = true ∧ decode (fetch (at8200 0xF0FF)) = .trap 0xFF := by decide

end Sys2Proof.Machine
end

/-! SUPPORT. The bits of `sext` and `zext` (spec/00_scope.md R9), at every field width. -/

namespace Sys2Proof.Machine

variable {n b : Nat}

theorem getLsbD_zext (v : BitVec n) (hb : b < 16) :
    (zext v).getLsbD b = if b < n then v.getLsbD b else false := by
  unfold zext
  rw [BitVec.getLsbD_setWidth]
  by_cases hbn : b < n
  · simp [hb, hbn]
  · simp [hbn, BitVec.getLsbD_of_ge v b (Nat.le_of_not_lt hbn)]

theorem getLsbD_sext (v : BitVec n) (hb : b < 16) :
    (sext v).getLsbD b = if b < n then v.getLsbD b else v.getLsbD (n - 1) := by
  unfold sext
  rw [BitVec.getLsbD_signExtend, BitVec.msb_eq_getLsbD_last]
  simp only [hb, decide_true, Bool.true_and]

/-- Shifting left by `16 - n` puts the field's top bit in the word's sign bit. -/
theorem msb_shiftLeft_field (w : Word) (hpos : 0 < n) (hn : n ≤ 16) :
    (w <<< (16 - n)).msb = w.getLsbD (n - 1) := by
  have htop : 16 - n < 16 := by omega
  have hback : 16 - 1 - (16 - n) = n - 1 := by omega
  rw [BitVec.msb_shiftLeft, BitVec.getMsbD, hback]
  simp only [htop, decide_true, Bool.true_and]

theorem getLsbD_sshiftRight_shiftLeft (w : Word) (hpos : 0 < n) (hn : n ≤ 16) (hb : b < 16) :
    ((w <<< (16 - n)).sshiftRight (16 - n)).getLsbD b =
      if b < n then w.getLsbD b else w.getLsbD (n - 1) := by
  have hin : 16 - n + b < 16 ↔ b < n := by omega
  rw [BitVec.getLsbD_sshiftRight, msb_shiftLeft_field w hpos hn, BitVec.getLsbD_shiftLeft]
  by_cases hbn : b < n
  · simp [hbn, hin, Nat.not_le.mpr hb]
  · simp [hbn, hin, Nat.not_le.mpr hb]

/-- R9's shift form: sign extension of a word's low bits moves the field to the top and back. -/
theorem sext_extractLsb' (w : Word) (hpos : 0 < n) (hn : n ≤ 16) :
    sext (w.extractLsb' 0 n) = (w <<< (16 - n)).sshiftRight (16 - n) := by
  apply BitVec.eq_of_getLsbD_eq
  intro b hb
  have hlast : n - 1 < n := Nat.sub_one_lt_of_lt hpos
  rw [getLsbD_sext _ hb, getLsbD_sshiftRight_shiftLeft w hpos hn hb]
  by_cases hbn : b < n
  · simp [hbn]
  · simp [hbn, hlast]

/-- Every field width R9 names is positive and no wider than a word. -/
theorem fieldWidth_bounds : ∀ n ∈ [4, 5, 6, 9, 11], 0 < n ∧ n ≤ 16 := by decide

/-- Settles O7: the bit lemmas hold at every width, the shift form at every width from 1 to 16. -/
theorem fieldsExtendAsTheSpecSays : Obligations.FieldsExtendAsTheSpecSays := by
  intro n hmem
  obtain ⟨hpos, hn⟩ := fieldWidth_bounds n hmem
  exact ⟨fun v b hb => ⟨getLsbD_sext v hb, getLsbD_zext v hb⟩, fun w => sext_extractLsb' w hpos hn⟩

end Sys2Proof.Machine

/-! SUPPORT. What one step can do (spec/40_datapath.md R100, R101), and what no instruction touches: the run state, the
records put out and the parameters (spec/10_state.md R32). -/

namespace Sys2Proof.Machine

/-! ### The run state, the records and the parameters through each operation -/

theorem sameRest_advance (s : State) : SameRest s (advance s) := ⟨rfl, rfl, rfl⟩

theorem sameRest_jumpTo (s : State) (target : Word) : SameRest s (jumpTo s target) := ⟨rfl, rfl, rfl⟩

theorem sameRest_finishResult (s : State) (d : RegIdx) (v : Word) : SameRest s (finishResult s d v) :=
  ⟨rfl, rfl, rfl⟩

theorem sameRest_finishCompare (s : State) (v : Word) : SameRest s (finishCompare s v) := ⟨rfl, rfl, rfl⟩

theorem sameRest_branchOn (cond : BitVec 3) (imm9 : BitVec 9) (s : State) : SameRest s (branchOn cond imm9 s) := by
  rw [branchOn_eq]
  exact ⟨rfl, rfl, rfl⟩

theorem sameRest_jumpTo_linkCall (s : State) (target : Word) : SameRest s (jumpTo (linkCall s) target) :=
  ⟨rfl, rfl, rfl⟩

theorem sameRest_load (s : State) (d : RegIdx) (v a : Word) :
    SameRest s (advance (noteLoad (writeResult s d v) a v)) := ⟨rfl, rfl, rfl⟩

theorem sameRest_store (s : State) (a v : Word) : SameRest s (advance (memWrite s a v)) := ⟨rfl, rfl, rfl⟩

theorem sameRest_enterTrap (s : State) (u8 : Byte) : SameRest s (enterTrap s u8) := by
  rw [enterTrap_eq]
  exact ⟨rfl, rfl, rfl⟩

theorem sameRest_returnFromTrap (s : State) : SameRest s (returnFromTrap s) := ⟨rfl, rfl, rfl⟩

/-- The dispatch reaches `SameRest` through the one shared operation each instruction ends in. -/
theorem sameRest_exec {i : Instr} {s t : State} (h : exec i s = .next t) : SameRest s t := by
  cases i with
  | nop | undefOp3 | undefOp11 | undefOp14 =>
    cases h
    exact sameRest_advance s
  | brp imm9 | brz imm9 | brzp imm9 | brn imm9 | brnp imm9 | brnz imm9 | brnzp imm9 =>
    cases h
    exact sameRest_branchOn _ imm9 s
  | add d | mul d | sub d | div d | addi d | and d | not d | or d | xor d | andi d | sll d | sra d | srl d | mod d
  | const d | hiconst d =>
    cases h
    exact sameRest_finishResult s d _
  | cmp | cmpu | cmpi | cmpiu =>
    cases h
    exact sameRest_finishCompare s _
  | jsr | jsrr =>
    cases h
    exact sameRest_jumpTo_linkCall s _
  | jmp | jmpr =>
    cases h
    exact sameRest_jumpTo s _
  | ldr d =>
    cases h
    exact sameRest_load s d _ _
  | str =>
    cases h
    exact sameRest_store s _ _
  | trap u8 =>
    cases h
    exact sameRest_enterTrap s u8
  | rti =>
    cases h
    exact sameRest_returnFromTrap s

/-! ### One step -/

theorem step_of_halted {s : State} (hrun : s.run = .halted) : step s = .next s := by
  simp only [step, cycle, hrun]

theorem step_of_sentinel {s : State} (hrun : s.run = .running) (hpc : s.pc = haltAddr) :
    step s = .next (halt s) := by
  simp only [step, cycle, hrun, if_pos hpc]

theorem step_of_running {s : State} (hrun : s.run = .running) (hpc : s.pc ≠ haltAddr) :
    step s = exec (decode (fetch s)) (beforeHandler s) := by
  simp only [step, cycle, hrun, if_neg hpc]

/-- The three ways a step can end in a next state (R100, R101). -/
theorem step_cases {s t : State} (h : step s = .next t) :
    (s.run = .halted ∧ t = s) ∨
    (s.run = .running ∧ s.pc = haltAddr ∧ t = halt s) ∨
    (s.run = .running ∧ s.pc ≠ haltAddr ∧ exec (decode (fetch s)) (beforeHandler s) = .next t) := by
  cases hrun : s.run with
  | halted =>
    rw [step_of_halted hrun] at h
    cases h
    exact .inl ⟨rfl, rfl⟩
  | running =>
    by_cases hpc : s.pc = haltAddr
    · rw [step_of_sentinel hrun hpc] at h
      cases h
      exact .inr (.inl ⟨rfl, hpc, rfl⟩)
    · rw [step_of_running hrun hpc] at h
      exact .inr (.inr ⟨rfl, hpc, h⟩)

/-- Settles O29: of the three kinds of step only the halt check writes the run state. -/
theorem runStateChangesOnlyByTheHaltCheck : Obligations.RunStateChangesOnlyByTheHaltCheck := by
  refine ⟨reset_run, fun s t h => ?_⟩
  obtain ⟨hrun, rfl⟩ | ⟨hrun, hpc, rfl⟩ | ⟨hrun, hpc, hexec⟩ := step_cases h
  · simp [hrun]
  · exact ⟨fun _ => iff_of_true (halt_run s) hpc, fun _ => halt_run s⟩
  · obtain ⟨hsame, -, -⟩ := sameRest_exec hexec
    have hstays : t.run = .running := hsame.trans hrun
    exact ⟨fun _ => iff_of_false (by simp [hstays]) hpc, fun hhalted => by simp [hrun] at hhalted⟩

end Sys2Proof.Machine

/-! SUPPORT. The class of a decoded instruction (spec/30_encoding.md R77): no sub-decoder leaves its own class, so the
opcode field alone selects it. -/

namespace Sys2Proof.Machine

/-! ### Each sub-decoder stays in one class, whatever its selector holds -/

theorem opcodeOf_decodeBranch (w : Word) : opcodeOf (decodeBranch w) = 0 := by
  unfold decodeBranch
  split <;> rfl

theorem opcodeOf_decodeArithmetic (w : Word) : opcodeOf (decodeArithmetic w) = 1 := by
  unfold decodeArithmetic
  split <;> rfl

theorem opcodeOf_decodeCompare (w : Word) : opcodeOf (decodeCompare w) = 2 := by
  unfold decodeCompare
  split <;> rfl

theorem opcodeOf_decodeSubroutine (w : Word) : opcodeOf (decodeSubroutine w) = 4 := by
  unfold decodeSubroutine
  split <;> rfl

theorem opcodeOf_decodeLogical (w : Word) : opcodeOf (decodeLogical w) = 5 := by
  unfold decodeLogical
  split <;> rfl

theorem opcodeOf_decodeShift (w : Word) : opcodeOf (decodeShift w) = 10 := by
  unfold decodeShift
  split <;> rfl

theorem opcodeOf_decodeJump (w : Word) : opcodeOf (decodeJump w) = 12 := by
  unfold decodeJump
  split <;> rfl

/-! ### The opcode field -/

/-- insn[15:12] as a number (R71): nothing stands above the field, so it is the quotient by 2^12. -/
theorem opField_toNat (w : Word) : (opField w).toNat = w.toNat / 4096 := by
  have hword : w.toNat < 65536 := w.isLt
  have hquot : w.toNat / 4096 < 2 ^ 4 := by omega
  calc (opField w).toNat
      = w.toNat >>> 12 % 2 ^ 4 := BitVec.extractLsb'_toNat 12 4 w
    _ = w.toNat / 4096 % 2 ^ 4 := by rw [Nat.shiftRight_eq_div_pow]
    _ = w.toNat / 4096 := Nat.mod_eq_of_lt hquot

/-- The decoder's sixteen arms, each in the class its opcode names (R77). -/
theorem opcodeOf_decode (w : Word) : opcodeOf (decode w) = (opField w).toNat := by
  have hop : (opField w).toNat < 16 := (opField w).isLt
  unfold decode
  split
  case h_1 h => rw [h, opcodeOf_decodeBranch]
  case h_2 h => rw [h, opcodeOf_decodeArithmetic]
  case h_3 h => rw [h, opcodeOf_decodeCompare]
  case h_5 h => rw [h, opcodeOf_decodeSubroutine]
  case h_6 h => rw [h, opcodeOf_decodeLogical]
  case h_11 h => rw [h, opcodeOf_decodeShift]
  case h_13 h => rw [h, opcodeOf_decodeJump]
  case h_4 h | h_7 h | h_8 h | h_9 h | h_10 h | h_12 h | h_14 h | h_15 h => exact h.symm
  case h_16 =>
    -- the catch-all arm has excluded 0 to 14, and the field is below 16
    show 15 = (opField w).toNat
    simp only [imp_false] at *
    omega

/-- Settles O6: the decoder dispatches on the opcode field, which is the number in bits 15..12. -/
theorem opcodeAloneSelectsTheClass : Obligations.OpcodeAloneSelectsTheClass := by
  intro w
  rw [opcodeOf_decode, opField_toNat]

end Sys2Proof.Machine

/-! SUPPORT. The whole of `SetFlags` (spec/40_datapath.md R104), and the halted output (R101, R103). -/

namespace Sys2Proof.Machine

/-! ### SetFlags -/

/-- Everything `SetFlags` does (R104). -/
theorem setFlags_eq (s : State) (v : Word) :
    setFlags s v =
      { s with
        status := withFlags s.status (flagCode v)
        sig := { s.sig with flagWE := true, flagOut := flagCode v } } := rfl

/-- The mode bit and the bits above it pass through a write of the flag field (R104). -/
theorem getLsbD_withFlags_of_le (status : Word) (code : BitVec 3) {b : Nat} (hb : 3 ≤ b) :
    (withFlags status code).getLsbD b = status.getLsbD b := by
  rw [getLsbD_withFlags, if_neg (Nat.not_lt.mpr hb)]

/-- Settles O9: the flag field and the bits above it are the two parts of `withFlags`, and the frame is `setFlags_eq`. -/
theorem setFlagsWritesTheSignOfTheValue : Obligations.SetFlagsWritesTheSignOfTheValue := by
  intro s v code
  have hcode : flagCode v = code := rfl
  refine ⟨?field, ?kept, ?snapshot, ?frame⟩
  case field => rw [setFlags_status, flagField_withFlags, hcode]
  case kept =>
    intro b hb
    rw [setFlags_status, getLsbD_withFlags_of_le s.status _ hb]
  case snapshot => rw [setFlags_sig, hcode]
  case frame => rw [setFlags_status, setFlags_sig, setFlags_eq]

/-! ### The halted output -/

/-- The halted output shows the run state (R5, R103). -/
theorem halted_iff_run (s : State) : s.halted = true ↔ s.run = .halted := by
  unfold State.halted
  exact beq_iff_eq

/-- Settles O28: the halted check comes first in the step, and the state it answers is the halted one. -/
theorem haltedStepChangesNothing : Obligations.HaltedStepChangesNothing := by
  intro s hrun
  exact ⟨step_of_halted hrun, (halted_iff_run s).mpr hrun⟩

end Sys2Proof.Machine

/-! SUPPORT. Words of the formats with two register fields and six low bits (spec/30_encoding.md R75): their fields, and
what the sub-decoders of opcodes 1, 5 and 10 read from them (R76, R78, R79). -/

namespace Sys2Proof.Machine

/-! ### A word's fields, for every opcode, register pair and low six bits -/

section Fields

variable (op : BitVec 4) (d r : RegIdx) (low : BitVec 6)

@[simp] theorem opField_encodeRegImm6 : opField (encodeRegImm6 op d r low) = op := by
  calc (op ++ d ++ r ++ low).extractLsb' 12 4
      = (op ++ d ++ r).extractLsb' 6 4 := BitVec.extractLsb'_append_eq_of_le (by decide)
    _ = (op ++ d).extractLsb' 3 4 := BitVec.extractLsb'_append_eq_of_le (by decide)
    _ = op := BitVec.extractLsb'_append_eq_left

@[simp] theorem dField_encodeRegImm6 : dField (encodeRegImm6 op d r low) = d := by
  calc (op ++ d ++ r ++ low).extractLsb' 9 3
      = (op ++ d ++ r).extractLsb' 3 3 := BitVec.extractLsb'_append_eq_of_le (by decide)
    _ = (op ++ d).extractLsb' 0 3 := BitVec.extractLsb'_append_eq_of_le (by decide)
    _ = d := BitVec.extractLsb'_append_eq_right

@[simp] theorem sField_encodeRegImm6 : sField (encodeRegImm6 op d r low) = r := by
  calc (op ++ d ++ r ++ low).extractLsb' 6 3
      = (op ++ d ++ r).extractLsb' 0 3 := BitVec.extractLsb'_append_eq_of_le (by decide)
    _ = r := BitVec.extractLsb'_append_eq_right

@[simp] theorem imm6Field_encodeRegImm6 : imm6Field (encodeRegImm6 op d r low) = low :=
  BitVec.extractLsb'_append_eq_right

/-- A field inside the low six bits is read from them alone. -/
theorem extractLsb'_encodeRegImm6 {start len : Nat} (h : start + len ≤ 6) :
    (encodeRegImm6 op d r low).extractLsb' start len = low.extractLsb' start len :=
  BitVec.extractLsb'_append_eq_of_add_le h

@[simp] theorem subAField_encodeRegImm6 (sub q : BitVec 3) : subAField (encodeRegImm6 op d r (sub ++ q)) = sub :=
  (extractLsb'_encodeRegImm6 op d r _ (by decide)).trans BitVec.extractLsb'_append_eq_left

@[simp] theorem tField_encodeRegImm6 (sub q : BitVec 3) : tField (encodeRegImm6 op d r (sub ++ q)) = q :=
  (extractLsb'_encodeRegImm6 op d r _ (by decide)).trans BitVec.extractLsb'_append_eq_right

@[simp] theorem subSField_encodeRegImm6 (sub : BitVec 2) (u4 : BitVec 4) :
    subSField (encodeRegImm6 op d r (sub ++ u4)) = sub :=
  (extractLsb'_encodeRegImm6 op d r _ (by decide)).trans BitVec.extractLsb'_append_eq_left

@[simp] theorem u4Field_encodeRegImm6 (sub : BitVec 2) (u4 : BitVec 4) :
    u4Field (encodeRegImm6 op d r (sub ++ u4)) = u4 :=
  (extractLsb'_encodeRegImm6 op d r _ (by decide)).trans BitVec.extractLsb'_append_eq_right

theorem toNat_modeImm (i5 : BitVec 5) : (0b1#1 ++ i5).toNat = 32 + i5.toNat := by
  rw [BitVec.toNat_append, ← Nat.shiftLeft_add_eq_or_of_lt i5.isLt]
  rfl

/-- With the mode bit 1 the selector is 1xx (R76). -/
theorem four_le_subAField_of_mode (i5 : BitVec 5) :
    4 ≤ (subAField (encodeRegImm6 op d r (0b1#1 ++ i5))).toNat := by
  have hsub : subAField (encodeRegImm6 op d r (0b1#1 ++ i5)) = (0b1#1 ++ i5).extractLsb' 3 3 :=
    extractLsb'_encodeRegImm6 op d r _ (by decide)
  rw [hsub, BitVec.extractLsb'_toNat, toNat_modeImm, Nat.shiftRight_eq_div_pow]
  have hi5 : i5.toNat < 32 := i5.isLt
  omega

end Fields

/-! ### The sub-decoder of each opcode -/

theorem decode_of_opField_one {w : Word} (h : opField w = 0b0001#4) : decode w = decodeArithmetic w := by
  simp only [decode, h, BitVec.toNat_ofNat]

theorem decode_of_opField_five {w : Word} (h : opField w = 0b0101#4) : decode w = decodeLogical w := by
  simp only [decode, h, BitVec.toNat_ofNat]

theorem decode_of_opField_ten {w : Word} (h : opField w = 0b1010#4) : decode w = decodeShift w := by
  simp only [decode, h, BitVec.toNat_ofNat]

/-- Any selector of 4 and above is ADDI (R76, R78). -/
theorem decodeArithmetic_of_mode {w : Word} (h : 4 ≤ (subAField w).toNat) :
    decodeArithmetic w = .addi (dField w) (sField w) (imm6Field w) := by
  unfold decodeArithmetic
  split
  case h_5 => rfl
  all_goals omega

/-- Any selector of 4 and above is ANDI (R76, R78). -/
theorem decodeLogical_of_mode {w : Word} (h : 4 ≤ (subAField w).toNat) :
    decodeLogical w = .andi (dField w) (sField w) (imm6Field w) := by
  unfold decodeLogical
  split
  case h_5 => rfl
  all_goals omega

/-! ### The words of each instruction -/

section Words

variable (d r q : RegIdx)

/-- The layouts write the low six bits as two fields; `encodeRegImm6` takes them as one. -/
theorem layout_eq_encodeRegImm6 (op : BitVec 4) (sub : BitVec 3) :
    op ++ d ++ r ++ sub ++ q = encodeRegImm6 op d r (sub ++ q) :=
  BitVec.append_assoc

theorem layout_mode_eq_encodeRegImm6 (op : BitVec 4) (i5 : BitVec 5) :
    op ++ d ++ r ++ 0b1#1 ++ i5 = encodeRegImm6 op d r (0b1#1 ++ i5) :=
  BitVec.append_assoc

theorem layout_shift_eq_encodeRegImm6 (op : BitVec 4) (sub : BitVec 2) (u4 : BitVec 4) :
    op ++ d ++ r ++ sub ++ u4 = encodeRegImm6 op d r (sub ++ u4) :=
  BitVec.append_assoc

theorem decode_arithmetic_layout (sub : BitVec 3) :
    decode (0b0001#4 ++ d ++ r ++ sub ++ q) = decodeArithmetic (encodeRegImm6 0b0001#4 d r (sub ++ q)) := by
  rw [layout_eq_encodeRegImm6, decode_of_opField_one (opField_encodeRegImm6 ..)]

theorem decode_logical_layout (sub : BitVec 3) :
    decode (0b0101#4 ++ d ++ r ++ sub ++ q) = decodeLogical (encodeRegImm6 0b0101#4 d r (sub ++ q)) := by
  rw [layout_eq_encodeRegImm6, decode_of_opField_five (opField_encodeRegImm6 ..)]

theorem decode_shift_layout (sub : BitVec 2) (u4 : BitVec 4) :
    decode (0b1010#4 ++ d ++ r ++ sub ++ u4) = decodeShift (encodeRegImm6 0b1010#4 d r (sub ++ u4)) := by
  rw [layout_shift_eq_encodeRegImm6, decode_of_opField_ten (opField_encodeRegImm6 ..)]

theorem decode_add : decode (0b0001#4 ++ d ++ r ++ 0b000#3 ++ q) = .add d r q := by
  rw [decode_arithmetic_layout]
  simp [decodeArithmetic]

theorem decode_mul : decode (0b0001#4 ++ d ++ r ++ 0b001#3 ++ q) = .mul d r q := by
  rw [decode_arithmetic_layout]
  simp [decodeArithmetic]

theorem decode_sub : decode (0b0001#4 ++ d ++ r ++ 0b010#3 ++ q) = .sub d r q := by
  rw [decode_arithmetic_layout]
  simp [decodeArithmetic]

theorem decode_div : decode (0b0001#4 ++ d ++ r ++ 0b011#3 ++ q) = .div d r q := by
  rw [decode_arithmetic_layout]
  simp [decodeArithmetic]

theorem decode_addi (i5 : BitVec 5) :
    decode (0b0001#4 ++ d ++ r ++ 0b1#1 ++ i5) = .addi d r (0b1#1 ++ i5) := by
  rw [layout_mode_eq_encodeRegImm6, decode_of_opField_one (opField_encodeRegImm6 ..),
    decodeArithmetic_of_mode (four_le_subAField_of_mode ..)]
  simp

theorem decode_and : decode (0b0101#4 ++ d ++ r ++ 0b000#3 ++ q) = .and d r q := by
  rw [decode_logical_layout]
  simp [decodeLogical]

/-- NOT's `t` bits are ignored (R82). -/
theorem decode_not : decode (0b0101#4 ++ d ++ r ++ 0b001#3 ++ q) = .not d r := by
  rw [decode_logical_layout]
  simp [decodeLogical]

theorem decode_or : decode (0b0101#4 ++ d ++ r ++ 0b010#3 ++ q) = .or d r q := by
  rw [decode_logical_layout]
  simp [decodeLogical]

theorem decode_xor : decode (0b0101#4 ++ d ++ r ++ 0b011#3 ++ q) = .xor d r q := by
  rw [decode_logical_layout]
  simp [decodeLogical]

theorem decode_andi (i5 : BitVec 5) :
    decode (0b0101#4 ++ d ++ r ++ 0b1#1 ++ i5) = .andi d r (0b1#1 ++ i5) := by
  rw [layout_mode_eq_encodeRegImm6, decode_of_opField_five (opField_encodeRegImm6 ..),
    decodeLogical_of_mode (four_le_subAField_of_mode ..)]
  simp

theorem decode_sll (u4 : BitVec 4) : decode (0b1010#4 ++ d ++ r ++ 0b00#2 ++ u4) = .sll d r u4 := by
  rw [decode_shift_layout]
  simp [decodeShift]

theorem decode_sra (u4 : BitVec 4) : decode (0b1010#4 ++ d ++ r ++ 0b01#2 ++ u4) = .sra d r u4 := by
  rw [decode_shift_layout]
  simp [decodeShift]

theorem decode_srl (u4 : BitVec 4) : decode (0b1010#4 ++ d ++ r ++ 0b10#2 ++ u4) = .srl d r u4 := by
  rw [decode_shift_layout]
  simp [decodeShift]

/-- Opcode 10 has no mode bit, so bit 3 of a MOD word is ignored (R79, R82). -/
theorem decode_mod (z : BitVec 1) : decode (0b1010#4 ++ d ++ r ++ 0b11#2 ++ z ++ q) = .mod d r q := by
  have hlayout : 0b1010#4 ++ d ++ r ++ 0b11#2 ++ z ++ q = 0b1010#4 ++ d ++ r ++ 0b11#2 ++ (z ++ q) :=
    BitVec.append_assoc
  have ht : tField (encodeRegImm6 0b1010#4 d r (0b11#2 ++ (z ++ q))) = q :=
    calc tField (encodeRegImm6 0b1010#4 d r (0b11#2 ++ (z ++ q)))
        = (0b11#2 ++ (z ++ q)).extractLsb' 0 3 := extractLsb'_encodeRegImm6 _ d r _ (by decide)
      _ = (z ++ q).extractLsb' 0 3 := BitVec.extractLsb'_append_eq_of_add_le (by decide)
      _ = q := BitVec.extractLsb'_append_eq_right
  rw [hlayout, decode_shift_layout]
  simp [decodeShift, ht]

end Words

end Sys2Proof.Machine

/-! SUPPORT. The effect every register-writing instruction shares (spec/41_alu.md R135), and the values of the arithmetic,
logical and shift classes (R130 to R149). -/

namespace Sys2Proof.Machine

/-! ### The shared effect -/

/-- Bits 2, 1 and 0 of the flag code are N, Z and P, and exactly one of them is 1 (R28, R104). -/
theorem getLsbD_flagCode_iff (v : Word) :
    ((flagCode v).getLsbD 2 = true ↔ v.toInt < 0) ∧ ((flagCode v).getLsbD 1 = true ↔ v = 0) ∧
      ((flagCode v).getLsbD 0 = true ↔ 0 < v.toInt) := by
  have hzero : v = 0 ↔ v.toInt = 0 := (BitVec.toInt_inj (y := 0)).symm
  rw [hzero]
  obtain ⟨hneg, hcode⟩ | ⟨rfl, hcode⟩ | ⟨hpos, hcode⟩ := flagCode_cases v
  · rw [hcode]
    exact ⟨iff_of_true rfl hneg, iff_of_false (by decide) (by omega), iff_of_false (by decide) (by omega)⟩
  · rw [hcode]
    decide
  · rw [hcode]
    exact ⟨iff_of_false (by decide) (by omega), iff_of_false (by decide) (by omega), iff_of_true rfl hpos⟩

theorem flagsAre_withFlags {s t : State} {v : Word} (h : t.status = withFlags s.status (flagCode v)) :
    FlagsAre s t (v.toInt < 0) (v = 0) (0 < v.toInt) := by
  have hcode : ∀ b < 3, t.status.getLsbD b = (flagCode v).getLsbD b := fun b hb => by
    rw [h, getLsbD_withFlags, if_pos hb]
  have hkept : ∀ b, 3 ≤ b → t.status.getLsbD b = s.status.getLsbD b := fun b hb => by
    rw [h, getLsbD_withFlags_of_le _ _ hb]
  obtain ⟨hneg, hzero, hpos⟩ := getLsbD_flagCode_iff v
  refine ⟨?n, ?z, ?p, hkept⟩
  case n => rwa [flagN, hcode 2 (by decide)]
  case z => rwa [flagZ, hcode 1 (by decide)]
  case p => rwa [flagP, hcode 0 (by decide)]

/-- `finishResult` is the effect of R135. -/
theorem resultEffect_finishResult (s : State) (d : RegIdx) (v : Word) :
    ResultEffect s (finishResult s d v) d v s.sig (s.pc + 1) where
  registers := readReg_finishResult s d v
  flags := flagsAre_withFlags rfl
  signals := by simp [finishResult_eq]
  nextPc := rfl
  memory := fun _ => rfl
  rest := sameRest_finishResult s d v

/-- An instruction that ends in `finishResult` completes with the effect of R135, in whatever form its value is given. -/
theorem exec_resultEffect {i : Instr} {s : State} {d : RegIdx} {v v' : Word}
    (hexec : exec i s = .next (finishResult s d v)) (hv : v = v') :
    ∃ t, exec i s = .next t ∧ ResultEffect s t d v' s.sig (s.pc + 1) :=
  ⟨_, hexec, hv ▸ resultEffect_finishResult s d v⟩

/-! ### Arithmetic values -/

theorem add_trunc16 (a : Word) (n : Int) : a + trunc16 n = trunc16 (a.toInt + n) := by
  rw [trunc16, trunc16, BitVec.ofInt_add, BitVec.ofInt_toInt]

theorem add_eq_trunc16 (a b : Word) : a + b = trunc16 (a.toInt + b.toInt) := by
  rw [← add_trunc16, trunc16, BitVec.ofInt_toInt]

theorem sub_eq_trunc16 (a b : Word) : a - b = trunc16 (a.toInt - b.toInt) := by
  rw [trunc16, Int.sub_eq_add_neg, BitVec.ofInt_add, BitVec.ofInt_neg, BitVec.ofInt_toInt, BitVec.ofInt_toInt,
    BitVec.sub_eq_add_neg]

theorem quot_zero (sg : Signedness) (a : Word) : quot sg a 0 = 0 := if_pos rfl

theorem rem_zero (sg : Signedness) (a : Word) : rem sg a 0 = 0 := if_pos rfl

theorem quot_signed {a b : Word} (hb : b ≠ 0) : quot .signed a b = trunc16 (a.toInt.tdiv b.toInt) := if_neg hb

theorem quot_unsigned {a b : Word} (hb : b ≠ 0) : quot .unsigned a b = a / b := by
  rw [quot, if_neg hb, ← BitVec.toNat_udiv, BitVec.ofNat_toNat, BitVec.setWidth_eq]

/-- The signed remainder has the sign of the dividend: it is the truncating one, which always fits a word (R136). -/
theorem rem_signed {a b : Word} (hb : b ≠ 0) : rem .signed a b = a.srem b := by
  calc rem .signed a b
      = trunc16 (a.toInt - a.toInt.tdiv b.toInt * b.toInt) := if_neg hb
    _ = trunc16 (a.srem b).toInt := by rw [BitVec.toInt_srem, Int.tmod_def, Int.mul_comm]
    _ = a.srem b := BitVec.ofInt_toInt

theorem rem_unsigned {a b : Word} (hb : b ≠ 0) : rem .unsigned a b = a % b := by
  rw [rem, if_neg hb, ← BitVec.toNat_umod, BitVec.ofNat_toNat, BitVec.setWidth_eq]

/-- The immediate of a word with mode bit 1 is its signed value at either width (R73). -/
theorem aluImm_of_mode (p : Params) (i5 : BitVec 5) :
    aluImm p.aluImmWidth (0b1#1 ++ i5) = trunc16 (immediateValue p i5) := by
  unfold immediateValue
  cases p.aluImmWidth with
  | six =>
    have hvalue : (0b1#1 ++ i5).toInt = i5.toNat - 32 := by
      rw [BitVec.toInt_append]
      simp
      omega
    exact congrArg trunc16 hvalue
  | five =>
    have hlow : (0b1#1 ++ i5).extractLsb' 0 5 = i5 := BitVec.extractLsb'_append_eq_right
    exact congrArg sext hlow

/-! ### The bits of a shift (R149) -/

section Shifts

variable (a : Word) (u4 : BitVec 4) {j : Nat}

theorem getLsbD_shiftLeft (hj : j < 16) :
    (shiftLeft a u4).getLsbD j = if j < u4.toNat then false else a.getLsbD (j - u4.toNat) := by
  rw [shiftLeft, BitVec.getLsbD_shiftLeft]
  by_cases hlow : j < u4.toNat
  · simp [hlow]
  · simp [hj, hlow]

theorem getLsbD_shiftRightArith (hj : j < 16) :
    (shiftRightArith a u4).getLsbD j = if j + u4.toNat < 16 then a.getLsbD (j + u4.toNat) else a.getLsbD 15 := by
  rw [shiftRightArith, BitVec.getLsbD_sshiftRight, BitVec.msb_eq_getLsbD_last, Nat.add_comm]
  simp [hj]

theorem getLsbD_shiftRightLogic :
    (shiftRightLogic a u4).getLsbD j = if j + u4.toNat < 16 then a.getLsbD (j + u4.toNat) else false := by
  rw [shiftRightLogic, BitVec.getLsbD_ushiftRight, Nat.add_comm]
  split
  · rfl
  · next hout => exact BitVec.getLsbD_of_ge _ _ (Nat.le_of_not_lt hout)

end Shifts

end Sys2Proof.Machine

/-! SUPPORT. The statements about the arithmetic, logical and shift classes (spec/41_alu.md): each instruction's word, its
completion through `finishResult`, and the value it computes. -/

namespace Sys2Proof.Machine

/-- Settles O11: modulo 65536 the word operations are the integer ones. -/
theorem addMulSubComputeModulo65536 : Obligations.AddMulSubComputeModulo65536 := by
  intro d r q s
  refine ⟨⟨decode_add d r q, ?add⟩, ⟨decode_mul d r q, ?mul⟩, ⟨decode_sub d r q, ?sub⟩⟩
  case add => exact exec_resultEffect rfl (add_eq_trunc16 _ _)
  case mul => exact exec_resultEffect rfl rfl
  case sub => exact exec_resultEffect rfl (sub_eq_trunc16 _ _)

/-- Settles O12, by the divisor and the signedness: each case is one equation of `quot` and of `rem`. -/
theorem divModComputeQuotientAndRemainder : Obligations.DivModComputeQuotientAndRemainder := by
  intro d r q z s a b
  refine ⟨⟨decode_div d r q, _, quot s.params.divSignedness a b, rfl, resultEffect_finishResult .., ?divZero, ?divSigned,
      ?divUnsigned⟩,
    ⟨decode_mod d r q z, _, rem s.params.divSignedness a b, rfl, resultEffect_finishResult .., ?modZero, ?modSigned,
      ?modUnsigned⟩⟩
  case divZero =>
    intro hb
    rw [hb, quot_zero]
  case divSigned =>
    intro hb hsg
    rw [hsg, quot_signed hb]
  case divUnsigned =>
    intro hb hsg
    rw [hsg, quot_unsigned hb, BitVec.toNat_udiv]
  case modZero =>
    intro hb
    rw [hb, rem_zero]
  case modSigned =>
    intro hb hsg
    rw [hsg, rem_signed hb, BitVec.toInt_srem]
  case modUnsigned =>
    intro hb hsg
    rw [hsg, rem_unsigned hb, BitVec.toNat_umod]

/-- Settles O14: under the mode bit the decoded immediate is `immediateValue` at either width. -/
theorem addiAndiUseTheAluImmediate : Obligations.AddiAndiUseTheAluImmediate := by
  intro d r i5 s
  have himm := aluImm_of_mode s.params i5
  refine ⟨⟨decode_addi d r i5, exec_resultEffect rfl ?addi⟩, ⟨decode_andi d r i5, exec_resultEffect rfl ?andi⟩⟩
  case addi => rw [himm, add_trunc16]
  case andi => rw [himm]

/-- Settles O15: each bit of the word operations is the operation on the bits. -/
theorem andNotOrXorWorkBitByBit : Obligations.AndNotOrXorWorkBitByBit := by
  intro d r q s a b
  refine ⟨⟨decode_and d r q, _, a &&& b, rfl, resultEffect_finishResult .., ?and⟩,
    ⟨decode_not d r q, _, ~~~a, rfl, resultEffect_finishResult .., ?not⟩,
    ⟨decode_or d r q, _, a ||| b, rfl, resultEffect_finishResult .., ?or⟩,
    ⟨decode_xor d r q, _, a ^^^ b, rfl, resultEffect_finishResult .., ?xor⟩⟩
  case and => exact fun j _ => BitVec.getLsbD_and
  case not =>
    intro j hj
    rw [BitVec.getLsbD_not, decide_eq_true hj, Bool.true_and]
  case or => exact fun j _ => BitVec.getLsbD_or
  case xor => exact fun j _ => BitVec.getLsbD_xor

/-- Settles O16: the bits of each shift by an amount the four-bit field can hold (R149). -/
theorem shiftsMoveBitsAndFillTheRest : Obligations.ShiftsMoveBitsAndFillTheRest := by
  intro d r u4 s a k
  refine ⟨⟨decode_sll d r u4, _, shiftLeft a u4, rfl, resultEffect_finishResult .., ?sll⟩,
    ⟨decode_sra d r u4, _, shiftRightArith a u4, rfl, resultEffect_finishResult .., ?sra⟩,
    ⟨decode_srl d r u4, _, shiftRightLogic a u4, rfl, resultEffect_finishResult .., ?srl⟩⟩
  case sll => exact fun j hj => getLsbD_shiftLeft a u4 hj
  case sra => exact fun j hj => getLsbD_shiftRightArith a u4 hj
  case srl => exact fun j _ => getLsbD_shiftRightLogic a u4

end Sys2Proof.Machine

/-! SUPPORT. Words of format BR (spec/30_encoding.md R75): their fields, and what the sub-decoder of opcode 0 reads from
them (R81). -/

namespace Sys2Proof.Machine

section BranchWords

variable (cond : BitVec 3) (imm9 : BitVec 9)

@[simp] theorem opField_encodeBranch : opField (encodeBranch cond imm9) = 0b0000#4 := by
  calc (0b0000#4 ++ cond ++ imm9).extractLsb' 12 4
      = (0b0000#4 ++ cond).extractLsb' 3 4 := BitVec.extractLsb'_append_eq_of_le (by decide)
    _ = 0b0000#4 := BitVec.extractLsb'_append_eq_left

@[simp] theorem condField_encodeBranch : condField (encodeBranch cond imm9) = cond := by
  calc (0b0000#4 ++ cond ++ imm9).extractLsb' 9 3
      = (0b0000#4 ++ cond).extractLsb' 0 3 := BitVec.extractLsb'_append_eq_of_le (by decide)
    _ = cond := BitVec.extractLsb'_append_eq_right

@[simp] theorem imm9Field_encodeBranch : imm9Field (encodeBranch cond imm9) = imm9 :=
  BitVec.extractLsb'_append_eq_right

theorem decode_of_opField_zero {w : Word} (h : opField w = 0b0000#4) : decode w = decodeBranch w := by
  simp only [decode, h, BitVec.toNat_ofNat]

theorem decode_branch_layout : decode (0b0000#4 ++ cond ++ imm9) = decodeBranch (encodeBranch cond imm9) :=
  decode_of_opField_zero (opField_encodeBranch cond imm9)

/-- Condition 000 is NOP, whatever the offset bits hold (R82). -/
theorem decode_nop : decode (0b0000#4 ++ 0b000#3 ++ imm9) = .nop := by
  rw [decode_branch_layout]
  simp [decodeBranch]

theorem decode_brp : decode (0b0000#4 ++ 0b001#3 ++ imm9) = .brp imm9 := by
  rw [decode_branch_layout]
  simp [decodeBranch]

theorem decode_brz : decode (0b0000#4 ++ 0b010#3 ++ imm9) = .brz imm9 := by
  rw [decode_branch_layout]
  simp [decodeBranch]

theorem decode_brzp : decode (0b0000#4 ++ 0b011#3 ++ imm9) = .brzp imm9 := by
  rw [decode_branch_layout]
  simp [decodeBranch]

theorem decode_brn : decode (0b0000#4 ++ 0b100#3 ++ imm9) = .brn imm9 := by
  rw [decode_branch_layout]
  simp [decodeBranch]

theorem decode_brnp : decode (0b0000#4 ++ 0b101#3 ++ imm9) = .brnp imm9 := by
  rw [decode_branch_layout]
  simp [decodeBranch]

theorem decode_brnz : decode (0b0000#4 ++ 0b110#3 ++ imm9) = .brnz imm9 := by
  rw [decode_branch_layout]
  simp [decodeBranch]

theorem decode_brnzp : decode (0b0000#4 ++ 0b111#3 ++ imm9) = .brnzp imm9 := by
  rw [decode_branch_layout]
  simp [decodeBranch]

end BranchWords

end Sys2Proof.Machine

/-! SUPPORT. Transfers of control (spec/40_datapath.md R120, R121): the targets as integers modulo 65536, and the effect
of an instruction that changes `pc` alone. -/

namespace Sys2Proof.Machine

/-! ### Targets -/

theorem toNat_trunc16 (n : Int) : ((trunc16 n).toNat : Int) = n % 65536 := by
  have hnonneg : 0 ≤ n % 65536 := Int.emod_nonneg n (by decide)
  rw [BitVec.toNat_ofInt]
  exact Int.toNat_of_nonneg hnonneg

theorem trunc16_toNat (w : Word) : trunc16 w.toNat = w := by
  rw [trunc16, BitVec.ofInt_natCast, BitVec.ofNat_toNat, BitVec.setWidth_eq]

/-- A sign-extended offset is the word of its signed value (R9, R10); by definition of sign extension. -/
theorem sext_eq_trunc16 {n : Nat} (offset : BitVec n) : sext offset = trunc16 offset.toInt := rfl

theorem succWord_eq_trunc16 (pc : Word) : succWord pc = trunc16 (pc.toNat + 1) := by
  rw [trunc16, BitVec.ofInt_add, ← trunc16, trunc16_toNat]
  rfl

theorem relTarget_eq_trunc16 {n : Nat} (pc : Word) (offset : BitVec n) :
    relTarget pc (sext offset) = trunc16 (pc.toNat + 1 + offset.toInt) := by
  calc relTarget pc (sext offset)
      = succWord pc + sext offset := rfl
    _ = trunc16 (pc.toNat + 1) + trunc16 offset.toInt := by rw [succWord_eq_trunc16, sext_eq_trunc16]
    _ = trunc16 (pc.toNat + 1 + offset.toInt) := (BitVec.ofInt_add ..).symm

/-! ### The effect on the state -/

theorem transferEffect_jumpTo {s : State} {a : Word} {target : Int} (h : a = trunc16 target) :
    TransferEffect s (jumpTo s a) target where
  nextPc := by rw [jumpTo_pc, h, toNat_trunc16]
  others := rfl

theorem transferEffect_advance (s : State) : TransferEffect s (advance s) (s.pc.toNat + 1) :=
  transferEffect_jumpTo (succWord_eq_trunc16 s.pc)

section Branches

variable {cond : BitVec 3} {imm9 : BitVec 9} {s : State}

theorem transferEffect_branchOn_of_taken (h : taken cond s.status = true) :
    TransferEffect s (branchOn cond imm9 s) (s.pc.toNat + 1 + imm9.toInt) := by
  rw [branchOn, if_pos h]
  exact transferEffect_jumpTo (relTarget_eq_trunc16 s.pc imm9)

theorem transferEffect_branchOn_of_not_taken (h : ¬ taken cond s.status = true) :
    TransferEffect s (branchOn cond imm9 s) (s.pc.toNat + 1) := by
  rw [branchOn, if_neg h]
  exact transferEffect_advance s

/-- An instruction that ends in `branchOn` completes and goes where its condition says, in whatever form that is given. -/
theorem exec_branchEffect {i : Instr} {goes : Prop} [Decidable goes] (hexec : exec i s = .next (branchOn cond imm9 s))
    (hgoes : taken cond s.status = true ↔ goes) :
    ∃ t, exec i s = .next t ∧
      TransferEffect s t (if goes then s.pc.toNat + 1 + imm9.toInt else s.pc.toNat + 1) := by
  refine ⟨_, hexec, ?_⟩
  split
  · next hyes => exact transferEffect_branchOn_of_taken (hgoes.mpr hyes)
  · next hno => exact transferEffect_branchOn_of_not_taken (mt hgoes.mp hno)

end Branches

/-! ### The conditions (R121), as the bits of the status register -/

section Conditions

variable (status : Word)

theorem taken_p_iff : taken 0b001#3 status = true ↔ status.getLsbD 0 = true := Iff.rfl

theorem taken_z_iff : taken 0b010#3 status = true ↔ status.getLsbD 1 = true := Iff.rfl

theorem taken_zp_iff : taken 0b011#3 status = true ↔ status.getLsbD 1 = true ∨ status.getLsbD 0 = true :=
  Bool.or_eq_true_iff

theorem taken_n_iff : taken 0b100#3 status = true ↔ status.getLsbD 2 = true := Iff.rfl

theorem taken_np_iff : taken 0b101#3 status = true ↔ status.getLsbD 2 = true ∨ status.getLsbD 0 = true :=
  Bool.or_eq_true_iff

theorem taken_nz_iff : taken 0b110#3 status = true ↔ status.getLsbD 2 = true ∨ status.getLsbD 1 = true :=
  Bool.or_eq_true_iff

theorem taken_always : taken 0b111#3 status = true := rfl

end Conditions

/-! ### NOP and the seven branches (spec/44_control_transfer.md) -/

/-- Settles O19: each branch ends in `branchOn` with its own condition, and NOP is the plain advance. -/
theorem branchesFollowTheFlags : Obligations.BranchesFollowTheFlags := by
  intro imm9 s next far p z n
  refine ⟨⟨decode_nop imm9, ?nop⟩, ⟨decode_brp imm9, ?brp⟩, ⟨decode_brz imm9, ?brz⟩, ⟨decode_brzp imm9, ?brzp⟩,
    ⟨decode_brn imm9, ?brn⟩, ⟨decode_brnp imm9, ?brnp⟩, ⟨decode_brnz imm9, ?brnz⟩, ⟨decode_brnzp imm9, ?brnzp⟩⟩
  case nop => exact ⟨_, rfl, transferEffect_advance s⟩
  case brp => exact exec_branchEffect rfl (taken_p_iff s.status)
  case brz => exact exec_branchEffect rfl (taken_z_iff s.status)
  case brzp => exact exec_branchEffect rfl (taken_zp_iff s.status)
  case brn => exact exec_branchEffect rfl (taken_n_iff s.status)
  case brnp => exact exec_branchEffect rfl (taken_np_iff s.status)
  case brnz => exact exec_branchEffect rfl (taken_nz_iff s.status)
  case brnzp => exact ⟨_, rfl, transferEffect_branchOn_of_taken (taken_always s.status)⟩

end Sys2Proof.Machine

/-! SUPPORT. Trap return and the mode bit (spec/60_exceptions.md R244, R247): which operations write status[3], and
which instructions reach them. -/

namespace Sys2Proof.Machine

/-! ### Trap return -/

/-- Every word of opcode 8 is RTI, whatever its low bits hold (R77, R82). -/
theorem decode_of_opField_eight {w : Word} (h : opField w = 0b1000#4) : decode w = .rti := by
  simp only [decode, h, BitVec.toNat_ofNat]

/-- Settles O25: RTI is trap return alone, so `returnFromTrap_eq` is its whole next state. -/
theorem trapReturnClearsTheStatus : Obligations.TrapReturnClearsTheStatus :=
  ⟨decode_of_opField_eight (by decide), fun s => congrArg Host.Outcome.next (returnFromTrap_eq s)⟩

/-! ### The mode bit through each write of the status register -/

@[simp] theorem flagPriv_zero : flagPriv 0 = false := rfl

@[simp] theorem flagPriv_withFlags (status : Word) (code : BitVec 3) :
    flagPriv (withFlags status code) = flagPriv status :=
  getLsbD_withFlags_of_le status code (Nat.le_refl 3)

@[simp] theorem flagPriv_withPriv (status : Word) : flagPriv (withPriv status) = true := by
  simp [flagPriv, getLsbD_withPriv]

theorem flagPriv_setFlags (s : State) (v : Word) : flagPriv (setFlags s v).status = flagPriv s.status :=
  flagPriv_withFlags s.status (flagCode v)

theorem flagPriv_branchOn (cond : BitVec 3) (imm9 : BitVec 9) (s : State) :
    flagPriv (branchOn cond imm9 s).status = flagPriv s.status := by
  rw [branchOn_eq]

theorem flagPriv_enterTrap (s : State) (u8 : Byte) : flagPriv (enterTrap s u8).status = true := by
  rw [enterTrap_eq]
  exact flagPriv_withPriv _

/-! ### The mode bit through each instruction -/

/-- Outside TRAP and RTI an instruction writes the status register by `SetFlags` or not at all. -/
theorem flagPriv_exec_of_ne {i : Instr} {s t : State} (h : exec i s = .next t) (htrap : ∀ u8, i ≠ .trap u8)
    (hrti : i ≠ .rti) : flagPriv t.status = flagPriv s.status := by
  cases i with
  | nop | jmp | jmpr | str | undefOp3 | undefOp11 | undefOp14 =>
    cases h
    rfl
  | brp imm9 | brz imm9 | brzp imm9 | brn imm9 | brnp imm9 | brnz imm9 | brnzp imm9 =>
    cases h
    exact flagPriv_branchOn _ imm9 s
  | add | mul | sub | div | addi | and | not | or | xor | andi | sll | sra | srl | mod | const | hiconst
  | cmp | cmpu | cmpi | cmpiu | jsr | jsrr | ldr =>
    cases h
    exact flagPriv_withFlags s.status _
  | trap u8 => exact absurd rfl (htrap u8)
  | rti => exact absurd rfl hrti

/-- Settles O40: trap entry sets the bit, trap return clears it, and `flagPriv_exec_of_ne` covers the rest. -/
theorem onlyTrapAndReturnChangeTheMode : Obligations.OnlyTrapAndReturnChangeTheMode := by
  refine ⟨rfl, flagPriv_setFlags, fun i s t h => ⟨?entered, ?left, flagPriv_exec_of_ne h⟩⟩
  case entered =>
    rintro ⟨u8, rfl⟩
    cases h
    exact flagPriv_enterTrap s u8
  case left =>
    rintro rfl
    cases h
    exact flagPriv_zero

end Sys2Proof.Machine

/-! SUPPORT. The mode is unobservable (spec/60_exceptions.md R246): no operation reads status[3], so two states that
differ in it alone stay so through each operation, each instruction, each step, and each run. -/

namespace Sys2Proof.Machine

/-! ### Status registers that agree off the mode bit -/

/-- The status `w` differs from `status` in bit 3 at most (R28): the second half of `SameButMode`. -/
def AgreeOffMode (status w : Word) : Prop := ∀ b, b ≠ 3 → w.getLsbD b = status.getLsbD b

/-- A state that differs from `s` in the mode alone is `s` with a status that agrees with its own off the mode bit. -/
theorem sameButMode_iff {s s' : State} :
    SameButMode s s' ↔ ∃ w, s' = { s with status := w } ∧ AgreeOffMode s.status w := by
  constructor
  · rintro ⟨hstate, hbits⟩
    exact ⟨s'.status, hstate, hbits⟩
  · rintro ⟨w, rfl, hbits⟩
    exact ⟨rfl, hbits⟩

section Agree

variable {status w : Word}

theorem agreeOffMode_withFlags (hw : AgreeOffMode status w) (code : BitVec 3) :
    AgreeOffMode (withFlags status code) (withFlags w code) := by
  intro b hb
  rw [getLsbD_withFlags, getLsbD_withFlags, hw b hb]

theorem agreeOffMode_withPriv (hw : AgreeOffMode status w) : AgreeOffMode (withPriv status) (withPriv w) := by
  intro b hb
  rw [getLsbD_withPriv, getLsbD_withPriv, hw b hb]

/-- A branch condition reads bits 2..0 only (R121). -/
theorem taken_of_agreeOffMode (hw : AgreeOffMode status w) (cond : BitVec 3) : taken cond w = taken cond status := by
  have hp : flagP w = flagP status := hw 0 (by decide)
  have hz : flagZ w = flagZ status := hw 1 (by decide)
  have hn : flagN w = flagN status := hw 2 (by decide)
  simp only [taken, hp, hz, hn]

end Agree

/-! ### Each operation, run from `s` and from `s` with the other status -/

section Operations

variable {s : State} {w : Word}

/-- Trap return clears the whole status, so even the difference in the mode is gone. -/
theorem sameButMode_returnFromTrap : SameButMode (returnFromTrap s) (returnFromTrap { s with status := w }) :=
  ⟨rfl, fun _ _ => rfl⟩

variable (hw : AgreeOffMode s.status w)

include hw

theorem sameButMode_advance : SameButMode (advance s) (advance { s with status := w }) := ⟨rfl, hw⟩

theorem sameButMode_jumpTo (target : Word) :
    SameButMode (jumpTo s target) (jumpTo { s with status := w } target) := ⟨rfl, hw⟩

theorem sameButMode_finishResult (d : RegIdx) (v : Word) :
    SameButMode (finishResult s d v) (finishResult { s with status := w } d v) :=
  ⟨rfl, agreeOffMode_withFlags hw _⟩

theorem sameButMode_finishCompare (v : Word) :
    SameButMode (finishCompare s v) (finishCompare { s with status := w } v) :=
  ⟨rfl, agreeOffMode_withFlags hw _⟩

theorem sameButMode_branchOn (cond : BitVec 3) (imm9 : BitVec 9) :
    SameButMode (branchOn cond imm9 s) (branchOn cond imm9 { s with status := w }) := by
  rw [branchOn_eq, branchOn_eq, taken_of_agreeOffMode hw]
  exact ⟨rfl, hw⟩

theorem sameButMode_jumpTo_linkCall (target : Word) :
    SameButMode (jumpTo (linkCall s) target) (jumpTo (linkCall { s with status := w }) target) :=
  ⟨rfl, agreeOffMode_withFlags hw _⟩

theorem sameButMode_load (d : RegIdx) (v a : Word) :
    SameButMode (advance (noteLoad (writeResult s d v) a v))
      (advance (noteLoad (writeResult { s with status := w } d v) a v)) :=
  ⟨rfl, agreeOffMode_withFlags hw _⟩

theorem sameButMode_store (a v : Word) :
    SameButMode (advance (memWrite s a v)) (advance (memWrite { s with status := w } a v)) := ⟨rfl, hw⟩

theorem sameButMode_enterTrap (u8 : Byte) :
    SameButMode (enterTrap s u8) (enterTrap { s with status := w } u8) := by
  rw [enterTrap_eq, enterTrap_eq]
  refine ⟨rfl, agreeOffMode_withPriv ?_⟩
  split
  · exact agreeOffMode_withFlags hw _
  · exact hw

end Operations

/-! ### Each instruction, each step, each run -/

/-- The dispatch reaches `SameButMode` through the one shared operation each instruction ends in; the operands it reads
are the same from both states. -/
theorem sameButMode_exec {i : Instr} {s s' t : State} (hsame : SameButMode s s') (h : exec i s = .next t) :
    ∃ t', exec i s' = .next t' ∧ SameButMode t t' := by
  obtain ⟨w, rfl, hw⟩ := sameButMode_iff.mp hsame
  cases i with
  | nop | undefOp3 | undefOp11 | undefOp14 =>
    cases h
    exact ⟨_, rfl, sameButMode_advance hw⟩
  | brp imm9 | brz imm9 | brzp imm9 | brn imm9 | brnp imm9 | brnz imm9 | brnzp imm9 =>
    cases h
    exact ⟨_, rfl, sameButMode_branchOn hw _ imm9⟩
  | add d | mul d | sub d | div d | addi d | and d | not d | or d | xor d | andi d | sll d | sra d | srl d | mod d
  | const d | hiconst d =>
    cases h
    exact ⟨_, rfl, sameButMode_finishResult hw d _⟩
  | cmp | cmpu | cmpi | cmpiu =>
    cases h
    exact ⟨_, rfl, sameButMode_finishCompare hw _⟩
  | jsr | jsrr =>
    cases h
    exact ⟨_, rfl, sameButMode_jumpTo_linkCall hw _⟩
  | jmp | jmpr =>
    cases h
    exact ⟨_, rfl, sameButMode_jumpTo hw _⟩
  | ldr d =>
    cases h
    exact ⟨_, rfl, sameButMode_load hw d _ _⟩
  | str =>
    cases h
    exact ⟨_, rfl, sameButMode_store hw _ _⟩
  | trap u8 =>
    cases h
    exact ⟨_, rfl, sameButMode_enterTrap hw u8⟩
  | rti =>
    cases h
    exact ⟨_, rfl, sameButMode_returnFromTrap⟩

/-- Neither the halt check nor the fetch and the trace record read the status register (R100, R128). -/
theorem sameButMode_step {s s' t : State} (hsame : SameButMode s s') (h : step s = .next t) :
    ∃ t', step s' = .next t' ∧ SameButMode t t' := by
  obtain ⟨w, rfl, hw⟩ := sameButMode_iff.mp hsame
  obtain ⟨hrun, rfl⟩ | ⟨hrun, hpc, rfl⟩ | ⟨hrun, hpc, hexec⟩ := step_cases h
  · exact ⟨_, step_of_halted hrun, hsame⟩
  · exact ⟨_, step_of_sentinel hrun hpc, rfl, hw⟩
  · have hbefore : SameButMode (beforeHandler s) (beforeHandler { s with status := w }) := ⟨rfl, hw⟩
    have hstep : step { s with status := w } = exec (decode (fetch s)) (beforeHandler { s with status := w }) :=
      step_of_running hrun hpc
    rw [hstep]
    exact sameButMode_exec hbefore hexec

theorem run_zero (s : State) : Host.Core.run core 0 s = .next s := rfl

theorem run_succ_of_step {s u : State} (h : step s = .next u) (k : Nat) :
    Host.Core.run core (k + 1) s = Host.Core.run core k u := by
  have hcore : core.step s = .next u := h
  simp only [Host.Core.run, hcore]

/-- A run of `k + 1` steps that answers a next state is one step and then a run of `k`. -/
theorem run_succ_cases {k : Nat} {s t : State} (h : Host.Core.run core (k + 1) s = .next t) :
    ∃ u, step s = .next u ∧ Host.Core.run core k u = .next t := by
  simp only [Host.Core.run] at h
  split at h
  · next u hstep => exact ⟨u, hstep, h⟩
  · cases h
  · cases h

/-- A relation that every step carries from the first state to the second is carried by every run. -/
theorem run_simulates {R : State → State → Prop}
    (hR : ∀ {s s' t}, R s s' → step s = .next t → ∃ t', step s' = .next t' ∧ R t t') (k : Nat) {s s' t : State}
    (hrel : R s s') (h : Host.Core.run core k s = .next t) :
    ∃ t', Host.Core.run core k s' = .next t' ∧ R t t' := by
  induction k generalizing s s' with
  | zero =>
    cases h
    exact ⟨s', run_zero s', hrel⟩
  | succ k ih =>
    obtain ⟨u, hstep, hrun⟩ := run_succ_cases h
    obtain ⟨u', hstep', hrel'⟩ := hR hrel hstep
    rw [run_succ_of_step hstep']
    exact ih hrel' hrun

/-- Settles O39: `SameButMode` is carried by every step, so by every run. -/
theorem theModeIsUnobservable : Obligations.TheModeIsUnobservable :=
  fun k _ _ _ hsame h => run_simulates sameButMode_step k hsame h

end Sys2Proof.Machine

/-! SUPPORT. What the memory of a loader's image reads, and the fields of the state reset leaves (spec/10_state.md R33,
spec/70_reset_and_hazards.md R260). -/

namespace Sys2Proof.Machine

/-! ### The loader's image, read back -/

/-- The empty memory reads as zero everywhere (R33, R263). -/
theorem readWord_nil (a : Word) : readWord [] a = 0 := by
  rw [readWord, readByte_nil, readByte_nil]
  rfl

/-- Once the words below `n` are written, those read as the image gives them and the others as zero. Past the last
address the writes wrap and write the same words again, so no bound on `n` is needed. -/
theorem readWord_imageUpTo (image : Word → Word) (n : Nat) (a : Word) :
    readWord (imageUpTo image n) a = if a.toNat < n then image a else 0 := by
  induction n with
  | zero => exact readWord_nil a
  | succ n ih =>
    rw [imageUpTo, readWord_writeWord, ih]
    by_cases ha : a = BitVec.ofNat 16 n
    · have hle : a.toNat ≤ n := by
        rw [ha, BitVec.toNat_ofNat]
        exact Nat.mod_le n _
      rw [if_pos ha, if_pos (Nat.lt_succ_of_le hle), ha]
    · have hne : a.toNat ≠ n := fun h => ha (by rw [← h, BitVec.ofNat_toNat, BitVec.setWidth_eq])
      have hlt : a.toNat < n + 1 ↔ a.toNat < n := by omega
      simp only [ha, hlt, if_false]

/-- Every word of a loader's image reads as the loader gave it (R33). -/
theorem readWord_imageMemory (image : Word → Word) (a : Word) : readWord (imageMemory image) a = image a := by
  rw [imageMemory, readWord_imageUpTo, if_pos a.isLt]

/-! ### resetFrom -/

section
variable (p : Params) (image : Word → Word)

@[simp] theorem resetFrom_pc : (resetFrom p image).pc = 0x8200 := rfl
@[simp] theorem resetFrom_regs : (resetFrom p image).regs = State.reset.regs := rfl
@[simp] theorem resetFrom_status : (resetFrom p image).status = 0 := rfl
@[simp] theorem resetFrom_mem : (resetFrom p image).mem = imageMemory image := rfl
@[simp] theorem resetFrom_sig : (resetFrom p image).sig = Signals.cleared := rfl
@[simp] theorem resetFrom_run : (resetFrom p image).run = .running := rfl

/-- Every register is zero after reset, whatever the image and the parameters (R27). -/
theorem readReg_resetFrom (r : RegIdx) : readReg (resetFrom p image) r = 0 := by
  rw [readReg_congr (resetFrom_regs p image), readReg_reset]

theorem readWord_resetFrom (a : Word) : readWord (resetFrom p image).mem a = image a := by
  rw [resetFrom_mem, readWord_imageMemory]

end

/-- Settles O35, field by field; the memory clause is the image read back, by induction on the words written. -/
theorem resetEstablishesTheStatedState : Obligations.ResetEstablishesTheStatedState :=
  fun p image =>
    ⟨resetFrom_pc p image, readReg_resetFrom p image, resetFrom_status p image, resetFrom_run p image,
      resetFrom_sig p image, readWord_resetFrom p image⟩

end Sys2Proof.Machine

/-! SUPPORT. What one instruction can do: the eight shapes of its next state (spec/40_datapath.md R102), each with the
register its rule names (R111) and whether it sets flags (R106). -/

namespace Sys2Proof.Machine

/-- The next state of instruction `i` from `s`, by the shared operation its rule ends in. Only the shapes an instruction
of several classes can take carry what `destReg` and `flagAffecting` say of it. -/
inductive ExecShape (s : State) : Instr → State → Prop
  | transfer {i : Instr} (target : Word) (hdest : destReg i = none) (hflags : flagAffecting s.params i = false)
      (hrti : i ≠ .rti) : ExecShape s i (jumpTo s target)
  | result {i : Instr} {d : RegIdx} (v : Word) (hdest : destReg i = some d) (hflags : flagAffecting s.params i = true) :
      ExecShape s i (finishResult s d v)
  | compare {i : Instr} (v : Word) (hdest : destReg i = none) (hflags : flagAffecting s.params i = true) :
      ExecShape s i (finishCompare s v)
  | link {i : Instr} (target : Word) (hdest : destReg i = some linkReg) (hflags : flagAffecting s.params i = true) :
      ExecShape s i (jumpTo (linkCall s) target)
  | load (d r : RegIdx) (imm6 : BitVec 6) :
      ExecShape s (.ldr d r imm6)
        (advance (noteLoad (writeResult s d (memRead s (effAddr s r imm6))) (effAddr s r imm6)
          (memRead s (effAddr s r imm6))))
  | store (d r : RegIdx) (imm6 : BitVec 6) :
      ExecShape s (.str d r imm6) (advance (memWrite s (effAddr s r imm6) (readReg s d)))
  | trap (u8 : Byte) : ExecShape s (.trap u8) (enterTrap s u8)
  | rti : ExecShape s .rti (returnFromTrap s)

theorem execShape_branchOn {i : Instr} (s : State) (cond : BitVec 3) (imm9 : BitVec 9) (hdest : destReg i = none)
    (hflags : flagAffecting s.params i = false) (hrti : i ≠ .rti) : ExecShape s i (branchOn cond imm9 s) := by
  rw [branchOn_eq]
  exact .transfer _ hdest hflags hrti

/-- Every instruction that answers a next state answers one of its shape: the one case split over the dispatch. -/
theorem execShape_of_exec {i : Instr} {s t : State} (h : exec i s = .next t) : ExecShape s i t := by
  cases i with
  | nop | undefOp3 | undefOp11 | undefOp14 | jmp | jmpr =>
    cases h
    exact .transfer _ rfl rfl nofun
  | brp imm9 | brz imm9 | brzp imm9 | brn imm9 | brnp imm9 | brnz imm9 | brnzp imm9 =>
    cases h
    exact execShape_branchOn s _ imm9 rfl rfl nofun
  | add | mul | sub | div | addi | and | not | or | xor | andi | sll | sra | srl | mod | const | hiconst =>
    cases h
    exact .result _ rfl rfl
  | cmp | cmpu | cmpi | cmpiu =>
    cases h
    exact .compare _ rfl rfl
  | jsr | jsrr =>
    cases h
    exact .link _ rfl rfl
  | ldr d r imm6 =>
    cases h
    exact .load d r imm6
  | str d r imm6 =>
    cases h
    exact .store d r imm6
  | trap u8 =>
    cases h
    exact .trap u8
  | rti =>
    cases h
    exact .rti

/-! ### The parts of the state an instruction writes, through each shape -/

section Shape

variable {i : Instr} {s t : State}

/-- No shape but the store touches the memory list (R51). -/
theorem mem_of_execShape (h : ExecShape s i t) (hstr : ∀ d r imm6, i ≠ .str d r imm6) : t.mem = s.mem := by
  cases h with
  | store d r imm6 => exact absurd rfl (hstr d r imm6)
  | trap u8 => rw [enterTrap_eq]
  | transfer | result | compare | link | load | rti => rfl

/-- A memory in canonical form stays so (log 2). -/
theorem wf_mem_of_execShape (h : ExecShape s i t) (hwf : s.mem.wf = true) : t.mem.wf = true := by
  cases h with
  | store => exact wf_writeWord hwf _ _
  | trap u8 => rwa [enterTrap_eq]
  | transfer | result | compare | link | load | rti => exact hwf

theorem readReg_enterTrap (s : State) (u8 : Byte) (r : RegIdx) :
    readReg (enterTrap s u8) r = if r = linkReg then succWord s.pc else readReg s r := by
  have hregs : (enterTrap s u8).regs = (writeReg s linkReg (succWord s.pc)).regs := by
    rw [enterTrap_eq]
    rfl
  rw [readReg_congr hregs, readReg_writeReg]

/-- Settles O47: the shapes that write a register carry its name. -/
theorem onlyTheNamedRegisterIsWritten : Obligations.OnlyTheNamedRegisterIsWritten := by
  intro i s t h r hr
  have hne : ∀ {d}, destReg i = some d → r ≠ d := by
    rintro d hd rfl
    exact hr hd
  cases execShape_of_exec h with
  | result v hdest => rw [readReg_finishResult, if_neg (hne hdest)]
  | link target hdest => rw [readReg_jumpTo, readReg_linkCall, if_neg (hne hdest)]
  | load d =>
    have hd : r ≠ d := hne rfl
    simp [writeResult, hd]
  | trap u8 => rw [readReg_enterTrap, if_neg (hne rfl)]
  | transfer | compare | store | rti => rfl

/-! ### Flags -/

theorem flagCode_one_hot (v : Word) : flagCode v = 1 ∨ flagCode v = 2 ∨ flagCode v = 4 := by
  obtain ⟨-, h⟩ | ⟨-, h⟩ | ⟨-, h⟩ := flagCode_cases v <;> simp [h]

/-- What `SetFlags` leaves is one of the three flag codes (R29). -/
theorem flagField_withFlags_one_hot (status v : Word) :
    flagField (withFlags status (flagCode v)) = 1 ∨ flagField (withFlags status (flagCode v)) = 2 ∨
      flagField (withFlags status (flagCode v)) = 4 := by
  rw [flagField_withFlags]
  exact flagCode_one_hot v

/-- Settles O48: the shapes that call `SetFlags` are those of the flag-affecting instructions. -/
theorem flagsChangeOnlyByFlagAffectingInstructions : Obligations.FlagsChangeOnlyByFlagAffectingInstructions := by
  intro i s t h
  cases execShape_of_exec h with
  | transfer target hdest hflags hrti => simp [hflags, hrti]
  | result v hdest hflags | compare v hdest hflags | link target hdest hflags =>
    rw [hflags, if_pos rfl]
    exact ⟨rfl, flagField_withFlags_one_hot s.status _⟩
  | load => exact ⟨rfl, flagField_withFlags_one_hot s.status _⟩
  | store | rti => exact ⟨rfl, rfl⟩
  | trap u8 =>
    have haffects : flagAffecting s.params (.trap u8) = s.params.trapSetsFlags := rfl
    rw [haffects, enterTrap_eq]
    by_cases hsets : s.params.trapSetsFlags = true
    · simp only [hsets, if_true, flagField_withPriv]
      exact ⟨rfl, flagField_withFlags_one_hot s.status _⟩
    · simp [hsets]

/-! ### Memory is read by loads and written by stores only -/

/-- Outside LDR no operand comes from memory, so another memory changes nothing else (R51). -/
theorem exec_with_mem (h : exec i s = .next t) (hldr : ∀ d r imm6, i ≠ .ldr d r imm6) (m : Memory) :
    ∃ u, exec i { s with mem := m } = .next u ∧ u = { t with mem := u.mem } := by
  cases i with
  | ldr d r imm6 => exact absurd rfl (hldr d r imm6)
  | brp imm9 | brz imm9 | brzp imm9 | brn imm9 | brnp imm9 | brnz imm9 | brnzp imm9 =>
    cases h
    refine ⟨_, rfl, ?_⟩
    rw [branchOn_eq, branchOn_eq]
  | trap u8 =>
    cases h
    refine ⟨_, rfl, ?_⟩
    rw [enterTrap_eq, enterTrap_eq]
  | nop | undefOp3 | undefOp11 | undefOp14 | jmp | jmpr | add | mul | sub | div | addi | and | not | or | xor | andi
  | sll | sra | srl | mod | const | hiconst | cmp | cmpu | cmpi | cmpiu | jsr | jsrr | str | rti =>
    cases h
    exact ⟨_, rfl, rfl⟩

/-- Settles O41: `mem_of_execShape` is the store half, `exec_with_mem` the load half. -/
theorem onlyLoadsReadAndOnlyStoresWriteMemory : Obligations.OnlyLoadsReadAndOnlyStoresWriteMemory :=
  fun _ _ _ h => ⟨mem_of_execShape (execShape_of_exec h), exec_with_mem h⟩

end Shape

end Sys2Proof.Machine

/-! SUPPORT. The invariants of a step: legal states (spec/10_state.md R29, R30, R33, spec/60_exceptions.md R253) and the
snapshot as the mirror of the write-back (spec/40_datapath.md R111, R124, R127). -/

namespace Sys2Proof.Machine

/-! ### Legal status registers and flag outputs -/

theorem legalFlagCode_flagCode (v : Word) : legalFlagCode (flagCode v) = true := by
  obtain h | h | h := flagCode_one_hot v <;> rw [h] <;> rfl

theorem legalStatus_iff (status : Word) :
    legalStatus status = true ↔ (∀ b, 4 ≤ b → status.getLsbD b = false) ∧ legalFlagCode (flagField status) = true := by
  have hhigh : status.extractLsb' 4 12 = 0 ↔ ∀ b, 4 ≤ b → status.getLsbD b = false := by
    constructor
    · intro h b hb
      have hbit := congrArg (fun x : BitVec 12 => x.getLsbD (b - 4)) h
      by_cases hw : b < 16
      · have hidx : 4 + (b - 4) = b := by omega
        have hlt : b - 4 < 12 := by omega
        simpa [BitVec.getLsbD_extractLsb', hidx, hlt] using hbit
      · exact BitVec.getLsbD_of_ge _ _ (Nat.le_of_not_lt hw)
    · intro h
      apply BitVec.eq_of_getLsbD_eq
      intro b hb
      simp [BitVec.getLsbD_extractLsb', h (4 + b) (Nat.le_add_right 4 b)]
  rw [legalStatus, Bool.and_eq_true, beq_iff_eq, hhigh]

/-- `SetFlags` leaves a legal status: one flag set, the bits above as they were (R29, R104). -/
theorem legalStatus_withFlags {status : Word} (h : legalStatus status = true) (v : Word) :
    legalStatus (withFlags status (flagCode v)) = true := by
  obtain ⟨hhigh, -⟩ := (legalStatus_iff status).mp h
  refine (legalStatus_iff _).mpr ⟨fun b hb => ?_, ?_⟩
  · rw [getLsbD_withFlags_of_le status _ (Nat.le_of_succ_le hb), hhigh b hb]
  · rw [flagField_withFlags, legalFlagCode_flagCode]

/-- The mode bit is no part of a status's legality. -/
theorem legalStatus_withPriv {status : Word} (h : legalStatus status = true) : legalStatus (withPriv status) = true := by
  obtain ⟨hhigh, hcode⟩ := (legalStatus_iff status).mp h
  refine (legalStatus_iff _).mpr ⟨fun b hb => ?_, ?_⟩
  · have hne : b ≠ 3 := by omega
    simp [getLsbD_withPriv, hhigh b hb, hne]
  · rwa [flagField_withPriv]

theorem legalStatus_zero : legalStatus 0 = true := by decide

theorem legalStatus_of_execShape {i : Instr} {s t : State} (h : ExecShape s i t) (hs : legalStatus s.status = true) :
    legalStatus t.status = true := by
  cases h with
  | transfer | store => exact hs
  | result | compare | link | load => exact legalStatus_withFlags hs _
  | rti => exact legalStatus_zero
  | trap u8 =>
    rw [enterTrap_eq]
    apply legalStatus_withPriv
    split
    · exact legalStatus_withFlags hs _
    · exact hs

theorem legalFlagOut_of_execShape {i : Instr} {s t : State} (h : ExecShape s i t)
    (hs : legalFlagCode s.sig.flagOut = true) : legalFlagCode t.sig.flagOut = true := by
  cases h with
  | transfer | store | rti => exact hs
  | result | compare | link | load => exact legalFlagCode_flagCode _
  | trap u8 =>
    rw [enterTrap_eq]
    dsimp only
    split
    · exact legalFlagCode_flagCode _
    · exact hs

/-! ### Legal states -/

/-- The parts of a legal state. -/
theorem legal_iff (s : State) :
    s.legal = true ↔ s.mem.wf = true ∧ legalStatus s.status = true ∧ legalFlagCode s.sig.flagOut = true ∧
      (s.run = .running ∨ s.pc = haltAddr) ∧ ∀ r ∈ s.trace, legalRecord r = true := by
  simp [State.legal, and_assoc]

theorem legalRecord_iff (r : TraceRecord) :
    legalRecord r = true ↔ r.pc ≠ haltAddr ∧ legalFlagCode r.sig.flagOut = true := by
  simp [legalRecord]

/-- The record an executing step puts out is legal where the state is (R100, R128). -/
theorem legalRecord_traceRecord {s : State} (hpc : s.pc ≠ haltAddr) (hout : legalFlagCode s.sig.flagOut = true) :
    legalRecord (traceRecord s) = true :=
  (legalRecord_iff _).mpr ⟨hpc, hout⟩

/-- An executed instruction keeps a legal state legal; it leaves the core running. -/
theorem legal_of_exec {s t : State} (hs : s.legal = true) (hrun : s.run = .running) (hpc : s.pc ≠ haltAddr)
    (h : exec (decode (fetch s)) (beforeHandler s) = .next t) : t.legal = true := by
  obtain ⟨hmem, hstatus, hout, -, htrace⟩ := (legal_iff s).mp hs
  obtain ⟨hsameRun, hsameTrace, -⟩ := sameRest_exec h
  have hshape := execShape_of_exec h
  refine (legal_iff t).mpr ⟨wf_mem_of_execShape hshape hmem, legalStatus_of_execShape hshape hstatus,
    legalFlagOut_of_execShape hshape rfl, .inl (hsameRun.trans hrun), ?_⟩
  rw [hsameTrace, beforeHandler_eq]
  exact List.forall_mem_cons.mpr ⟨legalRecord_traceRecord hpc hout, htrace⟩

/-- Settles O32, by the three kinds of step; the halt check halts only at the sentinel. -/
theorem stepKeepsLegalStates : Obligations.StepKeepsLegalStates := by
  intro s t hs h
  obtain ⟨-, rfl⟩ | ⟨-, hpc, rfl⟩ | ⟨hrun, hpc, hexec⟩ := step_cases h
  · exact hs
  · obtain ⟨hmem, hstatus, hout, -, htrace⟩ := (legal_iff s).mp hs
    exact (legal_iff _).mpr ⟨hmem, hstatus, hout, .inr hpc, htrace⟩
  · exact legal_of_exec hs hrun hpc hexec

/-! ### The snapshot as a mirror -/

theorem memRead_memWrite_same (s : State) (a v : Word) : memRead (memWrite s a v) a = v := by
  rw [memRead, memWrite_mem, readWord_writeWord, if_pos rfl]

/-- An operation that leaves the cleared snapshot mirrors nothing. -/
theorem mirrored_of_cleared {t : State} (h : t.sig = Signals.cleared) : t.mirrored := by
  simp [State.mirrored, h, Signals.cleared]

/-- A write of one register that leaves the memory port deasserted is mirrored, its flag write being so. -/
theorem mirrored_of_register {t : State} (hreg : readReg t t.sig.regSel = t.sig.regIn)
    (hflag : t.sig.flagWE = true → flagField t.status = t.sig.flagOut) (hmem : t.sig.memWE = false) : t.mirrored :=
  ⟨fun _ => hreg, hflag, fun h => absurd h (by simp [hmem])⟩

/-- From a cleared snapshot, what each shape asserts stands where it was written. -/
theorem mirrored_of_execShape {i : Instr} {s t : State} (hsig : s.sig = Signals.cleared) (h : ExecShape s i t) :
    t.mirrored := by
  have hregWE : s.sig.regWE = false := by rw [hsig]; rfl
  have hflagWE : s.sig.flagWE = false := by rw [hsig]; rfl
  have hmemWE : s.sig.memWE = false := by rw [hsig]; rfl
  have hflags : ∀ v, flagField (withFlags s.status (flagCode v)) = flagCode v := fun v => flagField_withFlags _ _
  cases h with
  | transfer | rti => exact mirrored_of_cleared hsig
  | result v => exact mirrored_of_register ((readReg_finishResult s _ v _).trans (if_pos rfl)) (fun _ => hflags v) hmemWE
  | compare v =>
    exact ⟨fun h => absurd h (by simp [finishCompare_eq, hregWE]), fun _ => hflags v,
      fun h => absurd h (by simp [finishCompare_eq, hmemWE])⟩
  | link => exact mirrored_of_register ((readReg_linkCall s linkReg).trans (if_pos rfl)) (fun _ => hflags _) hmemWE
  | load d r imm6 =>
    exact mirrored_of_register ((readReg_writeReg s d d _).trans (if_pos rfl)) (fun _ => hflags _) hmemWE
  | store =>
    exact ⟨fun h => absurd h (by simp [hregWE]), fun h => absurd h (by simp [hflagWE]),
      fun _ => memRead_memWrite_same s _ _⟩
  | trap u8 =>
    apply mirrored_of_register
    · rw [readReg_enterTrap, enterTrap_eq]
      split <;> rfl
    · rw [enterTrap_eq, flagField_withPriv]
      split
      · exact fun _ => hflags _
      · exact fun h => absurd h (by simp [hflagWE])
    · rw [enterTrap_eq]
      split <;> exact hmemWE

/-- Settles O33: a step that executes starts from the cleared snapshot; the other two kinds of step write nothing. -/
theorem stepKeepsTheSnapshotMirror : Obligations.StepKeepsTheSnapshotMirror := by
  intro s t hs h
  obtain ⟨-, rfl⟩ | ⟨-, -, rfl⟩ | ⟨-, -, hexec⟩ := step_cases h
  · exact hs
  · exact hs
  · exact mirrored_of_execShape rfl (execShape_of_exec hexec)

end Sys2Proof.Machine

/-! SUPPORT. The words of the remaining formats (spec/30_encoding.md R75), every bit the instruction ignores at any value
(R82): the fields the decoder reads from them, and the instruction it answers. -/

namespace Sys2Proof.Machine

/-! ### The sub-decoder or the instruction of each opcode (R77) -/

section Opcodes

variable {w : Word}

theorem decode_of_opField_two (h : opField w = 0b0010#4) : decode w = decodeCompare w := by
  simp only [decode, h, BitVec.toNat_ofNat]

theorem decode_of_opField_three (h : opField w = 0b0011#4) : decode w = .undefOp3 := by
  simp only [decode, h, BitVec.toNat_ofNat]

theorem decode_of_opField_four (h : opField w = 0b0100#4) : decode w = decodeSubroutine w := by
  simp only [decode, h, BitVec.toNat_ofNat]

theorem decode_of_opField_six (h : opField w = 0b0110#4) : decode w = .ldr (dField w) (sField w) (imm6Field w) := by
  simp only [decode, h, BitVec.toNat_ofNat]

theorem decode_of_opField_seven (h : opField w = 0b0111#4) : decode w = .str (dField w) (sField w) (imm6Field w) := by
  simp only [decode, h, BitVec.toNat_ofNat]

theorem decode_of_opField_nine (h : opField w = 0b1001#4) : decode w = .const (dField w) (imm9Field w) := by
  simp only [decode, h, BitVec.toNat_ofNat]

theorem decode_of_opField_eleven (h : opField w = 0b1011#4) : decode w = .undefOp11 := by
  simp only [decode, h, BitVec.toNat_ofNat]

theorem decode_of_opField_twelve (h : opField w = 0b1100#4) : decode w = decodeJump w := by
  simp only [decode, h, BitVec.toNat_ofNat]

theorem decode_of_opField_thirteen (h : opField w = 0b1101#4) : decode w = .hiconst (dField w) (u8Field w) := by
  simp only [decode, h, BitVec.toNat_ofNat]

theorem decode_of_opField_fourteen (h : opField w = 0b1110#4) : decode w = .undefOp14 := by
  simp only [decode, h, BitVec.toNat_ofNat]

theorem decode_of_opField_fifteen (h : opField w = 0b1111#4) : decode w = .trap (u8Field w) := by
  simp only [decode, h]
  rfl

end Opcodes

/-! ### Compares (formats CR and CI) -/

section Compares

/-- A CR word, its ignored bits at any value. -/
def crWord (d : RegIdx) (sub : BitVec 2) (x : BitVec 4) (t : RegIdx) : Word := 0b0010#4 ++ d ++ sub ++ x ++ t

/-- A CI word, its ignored bit at any value. -/
def ciWord (d : RegIdx) (sub : BitVec 2) (y : BitVec 1) (imm6 : BitVec 6) : Word := 0b0010#4 ++ d ++ sub ++ y ++ imm6

variable (d t : RegIdx) (sub : BitVec 2) (x : BitVec 4) (y : BitVec 1) (imm6 : BitVec 6)

@[simp] theorem opField_crWord : opField (crWord d sub x t) = 0b0010#4 := by
  rw [opField, crWord, BitVec.extractLsb'_append_eq_of_le (by decide),
    BitVec.extractLsb'_append_eq_of_le (by decide), BitVec.extractLsb'_append_eq_of_le (by decide),
    BitVec.extractLsb'_append_eq_left]

@[simp] theorem dField_crWord : dField (crWord d sub x t) = d := by
  rw [dField, crWord, BitVec.extractLsb'_append_eq_of_le (by decide), BitVec.extractLsb'_append_eq_of_le (by decide),
    BitVec.extractLsb'_append_eq_of_le (by decide), BitVec.extractLsb'_append_eq_right]

@[simp] theorem subCField_crWord : subCField (crWord d sub x t) = sub := by
  rw [subCField, crWord, BitVec.extractLsb'_append_eq_of_le (by decide),
    BitVec.extractLsb'_append_eq_of_le (by decide), BitVec.extractLsb'_append_eq_right]

@[simp] theorem tField_crWord : tField (crWord d sub x t) = t := by
  rw [tField, crWord, BitVec.extractLsb'_append_eq_right]

@[simp] theorem opField_ciWord : opField (ciWord d sub y imm6) = 0b0010#4 := by
  rw [opField, ciWord, BitVec.extractLsb'_append_eq_of_le (by decide),
    BitVec.extractLsb'_append_eq_of_le (by decide), BitVec.extractLsb'_append_eq_of_le (by decide),
    BitVec.extractLsb'_append_eq_left]

@[simp] theorem dField_ciWord : dField (ciWord d sub y imm6) = d := by
  rw [dField, ciWord, BitVec.extractLsb'_append_eq_of_le (by decide), BitVec.extractLsb'_append_eq_of_le (by decide),
    BitVec.extractLsb'_append_eq_of_le (by decide), BitVec.extractLsb'_append_eq_right]

@[simp] theorem subCField_ciWord : subCField (ciWord d sub y imm6) = sub := by
  rw [subCField, ciWord, BitVec.extractLsb'_append_eq_of_le (by decide),
    BitVec.extractLsb'_append_eq_of_le (by decide), BitVec.extractLsb'_append_eq_right]

@[simp] theorem imm6Field_ciWord : imm6Field (ciWord d sub y imm6) = imm6 := by
  rw [imm6Field, ciWord, BitVec.extractLsb'_append_eq_right]

theorem decode_cmp : decode (crWord d 0b00#2 x t) = .cmp d t := by
  rw [decode_of_opField_two (opField_crWord ..)]
  simp [decodeCompare]

theorem decode_cmpu : decode (crWord d 0b01#2 x t) = .cmpu d t := by
  rw [decode_of_opField_two (opField_crWord ..)]
  simp [decodeCompare]

theorem decode_cmpi : decode (ciWord d 0b10#2 y imm6) = .cmpi d imm6 := by
  rw [decode_of_opField_two (opField_ciWord ..)]
  simp [decodeCompare]

theorem decode_cmpiu : decode (ciWord d 0b11#2 y imm6) = .cmpiu d imm6 := by
  rw [decode_of_opField_two (opField_ciWord ..)]
  simp [decodeCompare]

end Compares

/-! ### Jumps and subroutine jumps (formats JR and J11) -/

section Jumps

/-- A JR word, its ignored bits at any value. -/
def jrWord (op : BitVec 4) (x : BitVec 2) (s : RegIdx) (imm6 : BitVec 6) : Word := op ++ 0b0#1 ++ x ++ s ++ imm6

variable (op : BitVec 4) (x : BitVec 2) (s : RegIdx) (imm6 : BitVec 6) (imm11 : BitVec 11)

@[simp] theorem opField_jrWord : opField (jrWord op x s imm6) = op := by
  rw [opField, jrWord, BitVec.extractLsb'_append_eq_of_le (by decide),
    BitVec.extractLsb'_append_eq_of_le (by decide), BitVec.extractLsb'_append_eq_of_le (by decide),
    BitVec.extractLsb'_append_eq_left]

@[simp] theorem m11Field_jrWord : m11Field (jrWord op x s imm6) = 0b0#1 := by
  rw [m11Field, jrWord, BitVec.extractLsb'_append_eq_of_le (by decide),
    BitVec.extractLsb'_append_eq_of_le (by decide), BitVec.extractLsb'_append_eq_of_le (by decide),
    BitVec.extractLsb'_append_eq_right]

@[simp] theorem sField_jrWord : sField (jrWord op x s imm6) = s := by
  rw [sField, jrWord, BitVec.extractLsb'_append_eq_of_le (by decide), BitVec.extractLsb'_append_eq_right]

@[simp] theorem imm6Field_jrWord : imm6Field (jrWord op x s imm6) = imm6 := by
  rw [imm6Field, jrWord, BitVec.extractLsb'_append_eq_right]

@[simp] theorem opField_encodeJ11 : opField (encodeJ11 op imm11) = op := by
  rw [opField, encodeJ11, BitVec.extractLsb'_append_eq_of_le (by decide), BitVec.extractLsb'_append_eq_left]

@[simp] theorem m11Field_encodeJ11 : m11Field (encodeJ11 op imm11) = 0b1#1 := by
  rw [m11Field, encodeJ11, BitVec.extractLsb'_append_eq_of_le (by decide), BitVec.extractLsb'_append_eq_right]

@[simp] theorem imm11Field_encodeJ11 : imm11Field (encodeJ11 op imm11) = imm11 := by
  rw [imm11Field, encodeJ11, BitVec.extractLsb'_append_eq_right]

theorem decode_jsrr : decode (jrWord 0b0100#4 x s imm6) = .jsrr s imm6 := by
  rw [decode_of_opField_four (opField_jrWord ..)]
  simp [decodeSubroutine]

theorem decode_jsr : decode (encodeJ11 0b0100#4 imm11) = .jsr imm11 := by
  rw [decode_of_opField_four (opField_encodeJ11 ..)]
  simp [decodeSubroutine]

theorem decode_jmpr : decode (jrWord 0b1100#4 x s imm6) = .jmpr s imm6 := by
  rw [decode_of_opField_twelve (opField_jrWord ..)]
  simp [decodeJump]

theorem decode_jmp : decode (encodeJ11 0b1100#4 imm11) = .jmp imm11 := by
  rw [decode_of_opField_twelve (opField_encodeJ11 ..)]
  simp [decodeJump]

end Jumps

/-! ### Loads and stores (format MEM) -/

section LoadStore

variable (d s : RegIdx) (imm6 : BitVec 6)

theorem decode_ldr : decode (encodeRegImm6 0b0110#4 d s imm6) = .ldr d s imm6 := by
  rw [decode_of_opField_six (opField_encodeRegImm6 ..)]
  simp

theorem decode_str : decode (encodeRegImm6 0b0111#4 d s imm6) = .str d s imm6 := by
  rw [decode_of_opField_seven (opField_encodeRegImm6 ..)]
  simp

end LoadStore

/-! ### Constants, traps and the formats with no operand (CONST, HC, TRAP, RTI, NONE) -/

section ConstantsAndTraps

/-- An HC word, its ignored bit at any value. -/
def hcWord (d : RegIdx) (x : BitVec 1) (u8 : Byte) : Word := 0b1101#4 ++ d ++ x ++ u8

/-- A TRAP word, its ignored bits at any value. -/
def trapWord (x : BitVec 4) (u8 : Byte) : Word := 0b1111#4 ++ x ++ u8

/-- A word of which the opcode alone matters. -/
def bareWord (op : BitVec 4) (x : BitVec 12) : Word := op ++ x

variable (op : BitVec 4) (d : RegIdx) (imm9 : BitVec 9) (u8 : Byte)

@[simp] theorem opField_encodeConst : opField (encodeConst d imm9) = 0b1001#4 := by
  rw [opField, encodeConst, BitVec.extractLsb'_append_eq_of_le (by decide), BitVec.extractLsb'_append_eq_left]

@[simp] theorem dField_encodeConst : dField (encodeConst d imm9) = d := by
  rw [dField, encodeConst, BitVec.extractLsb'_append_eq_of_le (by decide), BitVec.extractLsb'_append_eq_right]

@[simp] theorem imm9Field_encodeConst : imm9Field (encodeConst d imm9) = imm9 := by
  rw [imm9Field, encodeConst, BitVec.extractLsb'_append_eq_right]

theorem decode_const : decode (encodeConst d imm9) = .const d imm9 := by
  rw [decode_of_opField_nine (opField_encodeConst ..)]
  simp

@[simp] theorem opField_hcWord (x : BitVec 1) : opField (hcWord d x u8) = 0b1101#4 := by
  rw [opField, hcWord, BitVec.extractLsb'_append_eq_of_le (by decide),
    BitVec.extractLsb'_append_eq_of_le (by decide), BitVec.extractLsb'_append_eq_left]

@[simp] theorem dField_hcWord (x : BitVec 1) : dField (hcWord d x u8) = d := by
  rw [dField, hcWord, BitVec.extractLsb'_append_eq_of_le (by decide), BitVec.extractLsb'_append_eq_of_le (by decide),
    BitVec.extractLsb'_append_eq_right]

@[simp] theorem u8Field_hcWord (x : BitVec 1) : u8Field (hcWord d x u8) = u8 := by
  rw [u8Field, hcWord, BitVec.extractLsb'_append_eq_right]

theorem decode_hiconst (x : BitVec 1) : decode (hcWord d x u8) = .hiconst d u8 := by
  rw [decode_of_opField_thirteen (opField_hcWord ..)]
  simp

@[simp] theorem opField_trapWord (x : BitVec 4) : opField (trapWord x u8) = 0b1111#4 := by
  rw [opField, trapWord, BitVec.extractLsb'_append_eq_of_le (by decide), BitVec.extractLsb'_append_eq_left]

@[simp] theorem u8Field_trapWord (x : BitVec 4) : u8Field (trapWord x u8) = u8 := by
  rw [u8Field, trapWord, BitVec.extractLsb'_append_eq_right]

theorem decode_trap (x : BitVec 4) : decode (trapWord x u8) = .trap u8 := by
  rw [decode_of_opField_fifteen (opField_trapWord ..)]
  simp

@[simp] theorem opField_bareWord (x : BitVec 12) : opField (bareWord op x) = op := BitVec.extractLsb'_append_eq_left

end ConstantsAndTraps

end Sys2Proof.Machine

/-! SUPPORT. The decoder against the encoder (spec/30_encoding.md sections 3 and 4): every instruction is read back from
its encoding. -/

namespace Sys2Proof.Machine

/-! ### Encodings as the layouts the decoder's lemmas speak of -/

/-- Format AR with its mode bit 0 as part of a three-bit selector (R76). -/
theorem encodeAr_eq_layout (op : BitVec 4) (d s : RegIdx) (sub : BitVec 2) (t : RegIdx) :
    encodeAr op d s sub t = op ++ d ++ s ++ (0b0#1 ++ sub) ++ t :=
  congrArg (fun high : BitVec 13 => (high ++ t : Word)) BitVec.append_assoc

/-- Six low bits with the mode bit 1 are the mode bit over a five-bit immediate (R73). -/
theorem exists_modeImm {imm6 : BitVec 6} (h : imm6.getLsbD 5 = true) : ∃ i5 : BitVec 5, imm6 = 0b1#1 ++ i5 := by
  refine ⟨imm6.extractLsb' 0 5, ?_⟩
  revert imm6
  decide

theorem decode_encodeAr (op : BitVec 4) (d s : RegIdx) (sub : BitVec 2) (t : RegIdx) {i : Instr}
    (h : decode (op ++ d ++ s ++ (0b0#1 ++ sub) ++ t) = i) : decode (encodeAr op d s sub t) = i := by
  rw [encodeAr_eq_layout, h]

/-- The decoder reads a well-formed instruction back from its encoding, constructor by constructor. -/
theorem decode_encode {i : Instr} (h : i.wellFormed = true) : decode (encode i) = i := by
  cases i with
  | nop => exact decode_nop 0
  | brp imm9 => exact decode_brp imm9
  | brz imm9 => exact decode_brz imm9
  | brzp imm9 => exact decode_brzp imm9
  | brn imm9 => exact decode_brn imm9
  | brnp imm9 => exact decode_brnp imm9
  | brnz imm9 => exact decode_brnz imm9
  | brnzp imm9 => exact decode_brnzp imm9
  | add d s t => exact decode_encodeAr _ d s _ t (decode_add d s t)
  | mul d s t => exact decode_encodeAr _ d s _ t (decode_mul d s t)
  | sub d s t => exact decode_encodeAr _ d s _ t (decode_sub d s t)
  | div d s t => exact decode_encodeAr _ d s _ t (decode_div d s t)
  | addi d s imm6 =>
    obtain ⟨i5, rfl⟩ := exists_modeImm h
    rw [encode, ← layout_mode_eq_encodeRegImm6, decode_addi]
  | cmp d t => exact decode_cmp d t 0
  | cmpu d t => exact decode_cmpu d t 0
  | cmpi d imm6 => exact decode_cmpi d 0 imm6
  | cmpiu d imm6 => exact decode_cmpiu d 0 imm6
  | jsrr s imm6 => exact decode_jsrr 0 s imm6
  | jsr imm11 => exact decode_jsr imm11
  | and d s t => exact decode_encodeAr _ d s _ t (decode_and d s t)
  | not d s => exact decode_encodeAr _ d s _ 0 (decode_not d s 0)
  | or d s t => exact decode_encodeAr _ d s _ t (decode_or d s t)
  | xor d s t => exact decode_encodeAr _ d s _ t (decode_xor d s t)
  | andi d s imm6 =>
    obtain ⟨i5, rfl⟩ := exists_modeImm h
    rw [encode, ← layout_mode_eq_encodeRegImm6, decode_andi]
  | ldr d s imm6 => exact decode_ldr d s imm6
  | str d s imm6 => exact decode_str d s imm6
  | rti => exact decode_of_opField_eight (opField_bareWord _ 0)
  | const d imm9 => exact decode_const d imm9
  | sll d s u4 => exact decode_sll d s u4
  | sra d s u4 => exact decode_sra d s u4
  | srl d s u4 => exact decode_srl d s u4
  | mod d s t => exact decode_mod d s t 0
  | jmpr s imm6 => exact decode_jmpr 0 s imm6
  | jmp imm11 => exact decode_jmp imm11
  | hiconst d u8 => exact decode_hiconst d u8 0
  | trap u8 => exact decode_trap u8 0
  | undefOp3 => exact decode_of_opField_three (opField_bareWord _ 0)
  | undefOp11 => exact decode_of_opField_eleven (opField_bareWord _ 0)
  | undefOp14 => exact decode_of_opField_fourteen (opField_bareWord _ 0)

/-- Settles O1: `decode_encode`, constructor by constructor. -/
theorem decodeOfEncodeIsTheInstruction : Obligations.DecodeOfEncodeIsTheInstruction :=
  fun _ h => decode_encode h

end Sys2Proof.Machine

/-! SUPPORT. The encoder against the decoder (spec/30_encoding.md sections 3 to 5): every word is put together again from the
fields its format reads, up to the bits its instruction ignores. -/

namespace Sys2Proof.Machine

/-! ### A word from its fields, by format; ignored fields written as 0 -/

section Formats

variable (w : Word)

theorem brFields_append : opField w ++ condField w ++ imm9Field w = w := by
  apply BitVec.eq_of_getLsbD_eq
  intro b hb
  interval_cases b <;> simp only [opField, condField, imm9Field, BitVec.getLsbD_append] <;> simp

theorem nopFields_append : opField w ++ condField w ++ 0#9 = w &&& ~~~0x01FF := by
  apply BitVec.eq_of_getLsbD_eq
  intro b hb
  interval_cases b <;> simp only [opField, condField, BitVec.getLsbD_append] <;> simp

theorem arFields_append : opField w ++ dField w ++ sField w ++ subAField w ++ tField w = w := by
  apply BitVec.eq_of_getLsbD_eq
  intro b hb
  interval_cases b <;> simp only [opField, dField, sField, subAField, tField, BitVec.getLsbD_append] <;> simp

theorem notFields_append : opField w ++ dField w ++ sField w ++ subAField w ++ 0#3 = w &&& ~~~0x0007 := by
  apply BitVec.eq_of_getLsbD_eq
  intro b hb
  interval_cases b <;> simp only [opField, dField, sField, subAField, BitVec.getLsbD_append] <;> simp

theorem regImm6Fields_append : opField w ++ dField w ++ sField w ++ imm6Field w = w := by
  apply BitVec.eq_of_getLsbD_eq
  intro b hb
  interval_cases b <;> simp only [opField, dField, sField, imm6Field, BitVec.getLsbD_append] <;> simp

theorem crFields_append : opField w ++ dField w ++ subCField w ++ 0b0000#4 ++ tField w = w &&& ~~~0x0078 := by
  apply BitVec.eq_of_getLsbD_eq
  intro b hb
  interval_cases b <;> simp only [opField, dField, subCField, tField, BitVec.getLsbD_append] <;> simp

theorem ciFields_append : opField w ++ dField w ++ subCField w ++ 0b0#1 ++ imm6Field w = w &&& ~~~0x0040 := by
  apply BitVec.eq_of_getLsbD_eq
  intro b hb
  interval_cases b <;> simp only [opField, dField, subCField, imm6Field, BitVec.getLsbD_append] <;> simp

theorem jrFields_append : opField w ++ m11Field w ++ 0b00#2 ++ sField w ++ imm6Field w = w &&& ~~~0x0600 := by
  apply BitVec.eq_of_getLsbD_eq
  intro b hb
  interval_cases b <;> simp only [opField, m11Field, sField, imm6Field, BitVec.getLsbD_append] <;> simp

theorem j11Fields_append : opField w ++ m11Field w ++ imm11Field w = w := by
  apply BitVec.eq_of_getLsbD_eq
  intro b hb
  interval_cases b <;> simp only [opField, m11Field, imm11Field, BitVec.getLsbD_append] <;> simp

theorem shFields_append : opField w ++ dField w ++ sField w ++ subSField w ++ u4Field w = w := by
  apply BitVec.eq_of_getLsbD_eq
  intro b hb
  interval_cases b <;> simp only [opField, dField, sField, subSField, u4Field, BitVec.getLsbD_append] <;> simp

theorem modFields_append :
    opField w ++ dField w ++ sField w ++ subSField w ++ 0b0#1 ++ tField w = w &&& ~~~0x0008 := by
  apply BitVec.eq_of_getLsbD_eq
  intro b hb
  interval_cases b <;> simp only [opField, dField, sField, subSField, tField, BitVec.getLsbD_append] <;> simp

theorem constFields_append : opField w ++ dField w ++ imm9Field w = w := brFields_append w

theorem hcFields_append : opField w ++ dField w ++ 0b0#1 ++ u8Field w = w &&& ~~~0x0100 := by
  apply BitVec.eq_of_getLsbD_eq
  intro b hb
  interval_cases b <;> simp only [opField, dField, u8Field, BitVec.getLsbD_append] <;> simp

theorem trapFields_append : opField w ++ 0b0000#4 ++ u8Field w = w &&& ~~~0x0F00 := by
  apply BitVec.eq_of_getLsbD_eq
  intro b hb
  interval_cases b <;> simp only [opField, u8Field, BitVec.getLsbD_append] <;> simp

theorem bareFields_append : opField w ++ 0#12 = w &&& ~~~0x0FFF := by
  apply BitVec.eq_of_getLsbD_eq
  intro b hb
  interval_cases b <;> simp only [opField, BitVec.getLsbD_append] <;> simp

end Formats

/-! ### The encoding of what each sub-decoder answers -/

/-- The instruction is well-formed and encodes to the word with the instruction's ignored bits cleared. -/
def Recodes (w : Word) (i : Instr) : Prop := i.wellFormed = true ∧ encode i = w &&& ~~~i.ignoredBits

/-- Where no bit is ignored, the encoding is the word itself. -/
theorem recodes_of_encode_eq {w : Word} {i : Instr} (hwf : i.wellFormed = true) (hbits : i.ignoredBits = 0)
    (h : encode i = w) : Recodes w i := by
  refine ⟨hwf, ?_⟩
  rw [h, hbits]
  exact BitVec.and_allOnes.symm

section Recoding

variable {w : Word}

theorem encodeBranch_fields {cond : BitVec 3} (hop : opField w = 0b0000#4) (hcond : condField w = cond) :
    encodeBranch cond (imm9Field w) = w := by
  rw [encodeBranch, ← hop, ← hcond, brFields_append]

theorem recodes_decodeBranch (hop : opField w = 0b0000#4) : Recodes w (decodeBranch w) := by
  have hlt := (condField w).isLt
  unfold decodeBranch
  split
  case h_1 hcond =>
    refine ⟨rfl, ?_⟩
    have hfield : condField w = 0b000#3 := BitVec.eq_of_toNat_eq hcond
    rw [encode, encodeBranch, ← hop, ← hfield, nopFields_append]
    rfl
  case h_8 =>
    have hfield : condField w = 0b111#3 := by
      apply BitVec.eq_of_toNat_eq
      simp only [imp_false] at *
      change _ = 7
      omega
    exact recodes_of_encode_eq rfl rfl (encodeBranch_fields hop hfield)
  all_goals
    next hcond => exact recodes_of_encode_eq rfl rfl (encodeBranch_fields hop (BitVec.eq_of_toNat_eq hcond))

theorem encodeAr_fields {op : BitVec 4} {sub : BitVec 2} (hop : opField w = op) (hsub : subAField w = 0b0#1 ++ sub) :
    encodeAr op (dField w) (sField w) sub (tField w) = w := by
  rw [encodeAr_eq_layout, ← hop, ← hsub, arFields_append]

theorem encodeRegImm6_fields {op : BitVec 4} (hop : opField w = op) :
    encodeRegImm6 op (dField w) (sField w) (imm6Field w) = w := by
  rw [encodeRegImm6, ← hop, regImm6Fields_append]

/-- A selector of 4 and above has the mode bit 1 (R76). -/
theorem imm6Field_mode (h : 4 ≤ (subAField w).toNat) : (imm6Field w).getLsbD 5 = true := by
  have htop : ∀ sub : BitVec 3, 4 ≤ sub.toNat → sub.getLsbD 2 = true := by decide
  simpa [subAField, imm6Field] using htop _ h

theorem recodes_decodeArithmetic (hop : opField w = 0b0001#4) : Recodes w (decodeArithmetic w) := by
  unfold decodeArithmetic
  split
  case h_5 =>
    refine recodes_of_encode_eq (imm6Field_mode ?_) rfl (encodeRegImm6_fields hop)
    simp only [imp_false] at *
    omega
  all_goals
    next hsub => exact recodes_of_encode_eq rfl rfl (encodeAr_fields hop (BitVec.eq_of_toNat_eq hsub))

theorem recodes_decodeLogical (hop : opField w = 0b0101#4) : Recodes w (decodeLogical w) := by
  unfold decodeLogical
  split
  case h_2 hsub =>
    refine ⟨rfl, ?_⟩
    have hfield : subAField w = 0b0#1 ++ 0b01#2 := BitVec.eq_of_toNat_eq hsub
    rw [encode, encodeAr_eq_layout, ← hop, ← hfield, notFields_append]
    rfl
  case h_5 =>
    refine recodes_of_encode_eq (imm6Field_mode ?_) rfl (encodeRegImm6_fields hop)
    simp only [imp_false] at *
    omega
  all_goals
    next hsub => exact recodes_of_encode_eq rfl rfl (encodeAr_fields hop (BitVec.eq_of_toNat_eq hsub))

theorem encodeCr_fields {sub : BitVec 2} (hop : opField w = 0b0010#4) (hsub : subCField w = sub) :
    encodeCr (dField w) sub (tField w) = w &&& ~~~0x0078 := by
  rw [encodeCr, ← hop, ← hsub, crFields_append]

theorem encodeCi_fields {sub : BitVec 2} (hop : opField w = 0b0010#4) (hsub : subCField w = sub) :
    encodeCi (dField w) sub (imm6Field w) = w &&& ~~~0x0040 := by
  rw [encodeCi, ← hop, ← hsub, ciFields_append]

theorem recodes_decodeCompare (hop : opField w = 0b0010#4) : Recodes w (decodeCompare w) := by
  have hlt := (subCField w).isLt
  unfold decodeCompare
  split
  case h_1 hsub => exact ⟨rfl, encodeCr_fields hop (BitVec.eq_of_toNat_eq hsub)⟩
  case h_2 hsub => exact ⟨rfl, encodeCr_fields hop (BitVec.eq_of_toNat_eq hsub)⟩
  case h_3 hsub => exact ⟨rfl, encodeCi_fields hop (BitVec.eq_of_toNat_eq hsub)⟩
  case h_4 =>
    refine ⟨rfl, encodeCi_fields hop (BitVec.eq_of_toNat_eq ?_)⟩
    simp only [imp_false] at *
    change _ = 3
    omega

theorem encodeJr_fields {op : BitVec 4} (hop : opField w = op) (hm11 : m11Field w = 0b0#1) :
    encodeJr op (sField w) (imm6Field w) = w &&& ~~~0x0600 := by
  rw [encodeJr, ← hop, ← hm11, jrFields_append]

theorem encodeJ11_fields {op : BitVec 4} (hop : opField w = op) (hm11 : m11Field w = 0b1#1) :
    encodeJ11 op (imm11Field w) = w := by
  rw [encodeJ11, ← hop, ← hm11, j11Fields_append]

theorem m11Field_eq_one_of_ne_zero (h : (m11Field w).toNat ≠ 0) : m11Field w = 0b1#1 := by
  have hbit : ∀ m11 : BitVec 1, m11.toNat ≠ 0 → m11 = 0b1#1 := by decide
  exact hbit _ h

theorem recodes_decodeSubroutine (hop : opField w = 0b0100#4) : Recodes w (decodeSubroutine w) := by
  unfold decodeSubroutine
  split
  · next hm11 => exact ⟨rfl, encodeJr_fields hop (BitVec.eq_of_toNat_eq hm11)⟩
  · next hm11 => exact recodes_of_encode_eq rfl rfl (encodeJ11_fields hop (m11Field_eq_one_of_ne_zero hm11))

theorem recodes_decodeJump (hop : opField w = 0b1100#4) : Recodes w (decodeJump w) := by
  unfold decodeJump
  split
  · next hm11 => exact ⟨rfl, encodeJr_fields hop (BitVec.eq_of_toNat_eq hm11)⟩
  · next hm11 => exact recodes_of_encode_eq rfl rfl (encodeJ11_fields hop (m11Field_eq_one_of_ne_zero hm11))

theorem encodeSh_fields {sub : BitVec 2} (hop : opField w = 0b1010#4) (hsub : subSField w = sub) :
    encodeSh (dField w) (sField w) sub (u4Field w) = w := by
  rw [encodeSh, ← hop, ← hsub, shFields_append]

theorem recodes_decodeShift (hop : opField w = 0b1010#4) : Recodes w (decodeShift w) := by
  have hlt := (subSField w).isLt
  unfold decodeShift
  split
  case h_4 =>
    refine ⟨rfl, ?_⟩
    have hfield : subSField w = 0b11#2 := by
      apply BitVec.eq_of_toNat_eq
      simp only [imp_false] at *
      change _ = 3
      omega
    rw [encode, encodeMod, ← hop, ← hfield, modFields_append]
    rfl
  all_goals
    next hsub => exact recodes_of_encode_eq rfl rfl (encodeSh_fields hop (BitVec.eq_of_toNat_eq hsub))

theorem recodes_bare {i : Instr} {op : BitVec 4} (hwf : i.wellFormed = true) (hbits : i.ignoredBits = 0x0FFF)
    (hencode : encode i = encodeBare op) (hop : opField w = op) : Recodes w i := by
  refine ⟨hwf, ?_⟩
  rw [hencode, hbits, encodeBare, ← hop, bareFields_append]

/-- Every word's instruction is well-formed and encodes to the word but for its ignored bits, opcode by opcode. -/
theorem recodes_decode (w : Word) : Recodes w (decode w) := by
  have hlt := (opField w).isLt
  unfold decode
  split
  case h_1 h => exact recodes_decodeBranch (BitVec.eq_of_toNat_eq h)
  case h_2 h => exact recodes_decodeArithmetic (BitVec.eq_of_toNat_eq h)
  case h_3 h => exact recodes_decodeCompare (BitVec.eq_of_toNat_eq h)
  case h_5 h => exact recodes_decodeSubroutine (BitVec.eq_of_toNat_eq h)
  case h_6 h => exact recodes_decodeLogical (BitVec.eq_of_toNat_eq h)
  case h_11 h => exact recodes_decodeShift (BitVec.eq_of_toNat_eq h)
  case h_13 h => exact recodes_decodeJump (BitVec.eq_of_toNat_eq h)
  case h_4 h | h_9 h | h_12 h | h_15 h => exact recodes_bare rfl rfl rfl (BitVec.eq_of_toNat_eq h)
  case h_7 h | h_8 h => exact recodes_of_encode_eq rfl rfl (encodeRegImm6_fields (BitVec.eq_of_toNat_eq h))
  case h_10 h =>
    have hop : opField w = 0b1001#4 := BitVec.eq_of_toNat_eq h
    refine recodes_of_encode_eq rfl rfl ?_
    rw [encode, encodeConst, ← hop, constFields_append]
  case h_14 h =>
    have hop : opField w = 0b1101#4 := BitVec.eq_of_toNat_eq h
    refine ⟨rfl, ?_⟩
    rw [encode, encodeHc, ← hop, hcFields_append]
    rfl
  case h_16 =>
    have hop : opField w = 0b1111#4 := by
      apply BitVec.eq_of_toNat_eq
      simp only [imp_false] at *
      change _ = 15
      omega
    refine ⟨rfl, ?_⟩
    rw [encode, encodeTrap, ← hop, trapFields_append]
    rfl

/-- Settles O2: each sub-decoder's answer is put together again from the fields it was read from. -/
theorem encodeOfDecodeClearsIgnoredBits : Obligations.EncodeOfDecodeClearsIgnoredBits := recodes_decode

end Recoding

end Sys2Proof.Machine

/-! SUPPORT. Ignored bits (spec/30_encoding.md R82): a word that is an instruction's encoding but for the bits the instruction
ignores decodes to it, since no field the decoder reads meets those bits. -/

namespace Sys2Proof.Machine

/-! ### Fields outside the ignored bits -/

section Recoded

variable {w : Word} {i : Instr}

/-- A field that meets no ignored bit is the encoding's. -/
theorem field_of_recodes (h : Recodes w i) {start len : Nat} {v : BitVec len}
    (hv : (encode i).extractLsb' start len = v)
    (hbits : i.ignoredBits.extractLsb' start len = 0 := by simp [Instr.ignoredBits]) : w.extractLsb' start len = v := by
  subst hv
  obtain ⟨-, hencode⟩ := h
  apply BitVec.eq_of_getLsbD_eq
  intro b hb
  have hbit : i.ignoredBits.getLsbD (start + b) = false := by
    have := congrArg (fun x : BitVec len => x.getLsbD b) hbits
    simpa [BitVec.getLsbD_extractLsb', hb] using this
  have hbound := BitVec.lt_of_getLsbD (x := w) (i := start + b)
  simp only [hencode, BitVec.getLsbD_extractLsb', BitVec.getLsbD_and, BitVec.getLsbD_not, hbit]
  grind

/-- No instruction ignores a bit of the opcode field. -/
theorem opField_of_recodes (h : Recodes w i) : opField w = opField (encode i) := by
  refine field_of_recodes h rfl ?_
  cases i <;> simp [Instr.ignoredBits]

theorem decode_of_recodes_exact (h : Recodes w i) (hbits : i.ignoredBits = 0) : decode w = i := by
  obtain ⟨hwf, hencode⟩ := h
  have hword : encode i = w := by
    rw [hencode, hbits]
    exact BitVec.and_allOnes
  rw [← hword, decode_encode hwf]

theorem encode_not_eq (d s : RegIdx) : encode (.not d s) = encodeRegImm6 0b0101#4 d s (0b001#3 ++ 0#3) :=
  (encodeAr_eq_layout ..).trans (layout_eq_encodeRegImm6 ..)

theorem encode_mod_eq (d s t : RegIdx) : encode (.mod d s t) = encodeRegImm6 0b1010#4 d s (0b11#2 ++ (0b0#1 ++ t)) :=
  BitVec.append_assoc.trans BitVec.append_assoc

/-- Where bits are ignored, the decoder's fields are those of the encoding, one format after another. -/
theorem decode_of_recodes (h : Recodes w i) : decode w = i := by
  have hop := opField_of_recodes h
  cases i with
  | brp | brz | brzp | brn | brnp | brnz | brnzp | add | mul | sub | div | addi | jsr | and | or | xor | andi | ldr | str
  | const | sll | sra | srl | jmp => exact decode_of_recodes_exact h rfl
  | rti => exact decode_of_opField_eight (hop.trans (opField_bareWord _ 0))
  | undefOp3 => exact decode_of_opField_three (hop.trans (opField_bareWord _ 0))
  | undefOp11 => exact decode_of_opField_eleven (hop.trans (opField_bareWord _ 0))
  | undefOp14 => exact decode_of_opField_fourteen (hop.trans (opField_bareWord _ 0))
  | nop =>
    have hcond : condField w = 0b000#3 := field_of_recodes h rfl
    rw [decode_of_opField_zero hop]
    simp [decodeBranch, hcond]
  | cmp d t | cmpu d t =>
    have hsub : subCField w = _ := field_of_recodes h (subCField_crWord d t _ 0)
    have hd : dField w = d := field_of_recodes h (dField_crWord d t _ 0)
    have ht : tField w = t := field_of_recodes h (tField_crWord d t _ 0)
    rw [decode_of_opField_two (hop.trans (opField_crWord d t _ 0))]
    simp [decodeCompare, hsub, hd, ht]
  | cmpi d imm6 | cmpiu d imm6 =>
    have hsub : subCField w = _ := field_of_recodes h (subCField_ciWord d _ 0 imm6)
    have hd : dField w = d := field_of_recodes h (dField_ciWord d _ 0 imm6)
    have himm : imm6Field w = imm6 := field_of_recodes h (imm6Field_ciWord d _ 0 imm6)
    rw [decode_of_opField_two (hop.trans (opField_ciWord d _ 0 imm6))]
    simp [decodeCompare, hsub, hd, himm]
  | jsrr s imm6 =>
    have hm11 : m11Field w = 0b0#1 := field_of_recodes h (m11Field_jrWord _ 0 s imm6)
    have hs : sField w = s := field_of_recodes h (sField_jrWord _ 0 s imm6)
    have himm : imm6Field w = imm6 := field_of_recodes h (imm6Field_jrWord _ 0 s imm6)
    rw [decode_of_opField_four (hop.trans (opField_jrWord _ 0 s imm6))]
    simp [decodeSubroutine, hm11, hs, himm]
  | jmpr s imm6 =>
    have hm11 : m11Field w = 0b0#1 := field_of_recodes h (m11Field_jrWord _ 0 s imm6)
    have hs : sField w = s := field_of_recodes h (sField_jrWord _ 0 s imm6)
    have himm : imm6Field w = imm6 := field_of_recodes h (imm6Field_jrWord _ 0 s imm6)
    rw [decode_of_opField_twelve (hop.trans (opField_jrWord _ 0 s imm6))]
    simp [decodeJump, hm11, hs, himm]
  | not d s =>
    have hword := encode_not_eq d s
    have hsub : subAField w = 0b001#3 := field_of_recodes h (hword ▸ subAField_encodeRegImm6 ..)
    have hd : dField w = d := field_of_recodes h (hword ▸ dField_encodeRegImm6 ..)
    have hs : sField w = s := field_of_recodes h (hword ▸ sField_encodeRegImm6 ..)
    rw [decode_of_opField_five (hop.trans (hword ▸ opField_encodeRegImm6 ..))]
    simp [decodeLogical, hsub, hd, hs]
  | mod d s t =>
    have hword := encode_mod_eq d s t
    have hsub : subSField w = 0b11#2 := field_of_recodes h (hword ▸ subSField_encodeRegImm6 ..)
    have hd : dField w = d := field_of_recodes h (hword ▸ dField_encodeRegImm6 ..)
    have hs : sField w = s := field_of_recodes h (hword ▸ sField_encodeRegImm6 ..)
    have ht : tField w = t := field_of_recodes h BitVec.extractLsb'_append_eq_right
    rw [decode_of_opField_ten (hop.trans (hword ▸ opField_encodeRegImm6 ..))]
    simp [decodeShift, hsub, hd, hs, ht]
  | hiconst d u8 =>
    have hd : dField w = d := field_of_recodes h (dField_hcWord d u8 0)
    have hu8 : u8Field w = u8 := field_of_recodes h (u8Field_hcWord d u8 0)
    rw [decode_of_opField_thirteen (hop.trans (opField_hcWord d u8 0))]
    simp [hd, hu8]
  | trap u8 =>
    have hu8 : u8Field w = u8 := field_of_recodes h (u8Field_trapWord u8 0)
    rw [decode_of_opField_fifteen (hop.trans (opField_trapWord u8 0))]
    simp [hu8]

end Recoded

/-- Settles O3: the flipped word recodes to the same instruction, so it decodes to it. -/
theorem ignoredBitsNeverMatter : Obligations.IgnoredBitsNeverMatter := by
  intro w flips hflips
  obtain ⟨hwf, hencode⟩ := recodes_decode w
  refine decode_of_recodes ⟨hwf, ?_⟩
  have hxor : (w ^^^ flips) &&& ~~~(decode w).ignoredBits =
      (w &&& ~~~(decode w).ignoredBits) ^^^ (flips &&& ~~~(decode w).ignoredBits) := by
    ext b hb
    simp [Bool.and_xor_distrib_right]
  rw [hencode, hxor, hflips]
  exact BitVec.xor_zero.symm

/-! ### The opcode table (R84) -/

/-- Each instruction encodes to a word of its own row. -/
theorem encodesOwnRow (i : Instr) : Laws.EncodesOwnRow.Statement i := by
  cases i with
  | nop => exact Laws.EncodesOwnRow.nop
  | brp imm9 => exact Laws.EncodesOwnRow.brp imm9
  | brz imm9 => exact Laws.EncodesOwnRow.brz imm9
  | brzp imm9 => exact Laws.EncodesOwnRow.brzp imm9
  | brn imm9 => exact Laws.EncodesOwnRow.brn imm9
  | brnp imm9 => exact Laws.EncodesOwnRow.brnp imm9
  | brnz imm9 => exact Laws.EncodesOwnRow.brnz imm9
  | brnzp imm9 => exact Laws.EncodesOwnRow.brnzp imm9
  | add d s t => exact Laws.EncodesOwnRow.add d s t
  | mul d s t => exact Laws.EncodesOwnRow.mul d s t
  | sub d s t => exact Laws.EncodesOwnRow.sub d s t
  | div d s t => exact Laws.EncodesOwnRow.div d s t
  | addi d s imm6 => exact Laws.EncodesOwnRow.addi d s imm6
  | cmp d t => exact Laws.EncodesOwnRow.cmp d t
  | cmpu d t => exact Laws.EncodesOwnRow.cmpu d t
  | cmpi d imm6 => exact Laws.EncodesOwnRow.cmpi d imm6
  | cmpiu d imm6 => exact Laws.EncodesOwnRow.cmpiu d imm6
  | jsrr s imm6 => exact Laws.EncodesOwnRow.jsrr s imm6
  | jsr imm11 => exact Laws.EncodesOwnRow.jsr imm11
  | and d s t => exact Laws.EncodesOwnRow.and d s t
  | not d s => exact Laws.EncodesOwnRow.not d s
  | or d s t => exact Laws.EncodesOwnRow.or d s t
  | xor d s t => exact Laws.EncodesOwnRow.xor d s t
  | andi d s imm6 => exact Laws.EncodesOwnRow.andi d s imm6
  | ldr d s imm6 => exact Laws.EncodesOwnRow.ldr d s imm6
  | str d s imm6 => exact Laws.EncodesOwnRow.str d s imm6
  | rti => exact Laws.EncodesOwnRow.rti
  | const d imm9 => exact Laws.EncodesOwnRow.const d imm9
  | sll d s u4 => exact Laws.EncodesOwnRow.sll d s u4
  | sra d s u4 => exact Laws.EncodesOwnRow.sra d s u4
  | srl d s u4 => exact Laws.EncodesOwnRow.srl d s u4
  | mod d s t => exact Laws.EncodesOwnRow.mod d s t
  | jmpr s imm6 => exact Laws.EncodesOwnRow.jmpr s imm6
  | jmp imm11 => exact Laws.EncodesOwnRow.jmp imm11
  | hiconst d u8 => exact Laws.EncodesOwnRow.hiconst d u8
  | trap u8 => exact Laws.EncodesOwnRow.trap u8
  | undefOp3 => exact Laws.EncodesOwnRow.undefOp3
  | undefOp11 => exact Laws.EncodesOwnRow.undefOp11
  | undefOp14 => exact Laws.EncodesOwnRow.undefOp14

/-- Two rows that agree on the bits both fix are the same row. -/
theorem opcodeTable_disjoint :
    ∀ r ∈ opcodeTable, ∀ other ∈ opcodeTable, other.pattern &&& r.mask = r.pattern &&& other.mask → other = r := by
  decide

/-- A word two rows select agrees with the patterns of both on the bits both fix. -/
theorem row_unique {r other : OpRow} (hr : r ∈ opcodeTable) (hother : other ∈ opcodeTable) {w : Word}
    (hw : r.selects w = true) (hw' : other.selects w = true) : other = r := by
  refine opcodeTable_disjoint r hr other hother ?_
  rw [← beq_iff_eq.mp hw, ← beq_iff_eq.mp hw']
  ext b hb
  simp only [BitVec.getElem_and]
  ac_rfl

/-- A row fixes no bit that its instruction ignores. -/
theorem mask_and_ignoredBits (i : Instr) :
    ∀ r ∈ opcodeTable, r.mnemonic = i.mnemonic → r.mask &&& i.ignoredBits = 0 := by
  cases i with
  | brp | brz | brzp | brn | brnp | brnz | brnzp | add | mul | sub | div | addi | jsr | and | or | xor | andi | ldr | str
  | const | sll | sra | srl | jmp => exact fun _ _ _ => BitVec.and_zero
  | nop | cmp | cmpu | cmpi | cmpiu | jsrr | jmpr | not | rti | mod | hiconst | trap | undefOp3 | undefOp11 | undefOp14 =>
    simp only [Instr.mnemonic, Instr.ignoredBits]
    decide

/-- The row of an instruction's encoding selects every word that differs from it in ignored bits only. -/
theorem selects_of_recodes {w : Word} {i : Instr} {r : OpRow} (h : Recodes w i) (hmask : r.mask &&& i.ignoredBits = 0)
    (hr : r.selects (encode i) = true) : r.selects w = true := by
  obtain ⟨-, hencode⟩ := h
  rw [OpRow.selects, hencode, beq_iff_eq] at hr
  rw [OpRow.selects, beq_iff_eq, ← hr]
  ext b hb
  have hbit : (r.mask[b] && i.ignoredBits[b]) = false := by
    rw [← BitVec.getElem_and, hmask]
    exact BitVec.getElem_zero hb
  simp only [BitVec.getElem_and, BitVec.getElem_not]
  cases hi : i.ignoredBits[b] <;> simp_all

/-- Settles O4: the row is that of the instruction's own encoding, and no two rows share a word. -/
theorem everyWordSelectsOneTableRow : Obligations.EveryWordSelectsOneTableRow := by
  intro w
  have hrecodes := recodes_decode w
  obtain ⟨r, hr, hmnemonic, hselects⟩ := encodesOwnRow (decode w) hrecodes.1
  have hw := selects_of_recodes hrecodes (mask_and_ignoredBits _ r hr hmnemonic) hselects
  exact ⟨r, hr, hw, hmnemonic, fun other hother hw' => row_unique hr hother hw hw'⟩

end Sys2Proof.Machine

/-! SUPPORT. The compare and constant classes, the condition table, and the law of quotient and remainder. -/

namespace Sys2Proof.Machine

/-! ### Small closed facts -/

/-- Settles O5: seventeen closed words. -/
theorem wordsWrittenOutDecodeAsTheSpecSays : Obligations.WordsWrittenOutDecodeAsTheSpecSays := by
  unfold Obligations.WordsWrittenOutDecodeAsTheSpecSays
  decide

/-- Settles O8, over the 32 values of insn[4:0]. -/
theorem aluImmediateRangeByWidth : Obligations.AluImmediateRangeByWidth := by
  unfold Obligations.AluImmediateRangeByWidth
  decide

/-! ### The condition table (R121) -/

/-- A condition's bits against the flag field, bit 0 standing for P, bit 1 for Z and bit 2 for N. -/
theorem cond_and_flags (f : BitVec 3) :
    (1 &&& f != 0) = f.getLsbD 0 ∧ (2 &&& f != 0) = f.getLsbD 1 ∧ (3 &&& f != 0) = (f.getLsbD 1 || f.getLsbD 0) ∧
    (4 &&& f != 0) = f.getLsbD 2 ∧ (5 &&& f != 0) = (f.getLsbD 2 || f.getLsbD 0) ∧
    (6 &&& f != 0) = (f.getLsbD 2 || f.getLsbD 1) := by
  revert f
  decide

theorem getLsbD_flagField (status : Word) {b : Nat} (hb : b < 3) : (flagField status).getLsbD b = status.getLsbD b := by
  simp [flagField, hb]

/-- The bitwise form of the table for the conditions that read flags. -/
theorem taken_eq_and (status : Word) {cond : BitVec 3} (h0 : cond ≠ 0) (h7 : cond ≠ 7) :
    taken cond status = (cond &&& flagField status != 0) := by
  have hcond : ∀ c : BitVec 3, c ≠ 0 → c ≠ 7 → c = 1 ∨ c = 2 ∨ c = 3 ∨ c = 4 ∨ c = 5 ∨ c = 6 := by decide
  obtain ⟨h1, h2, h3, h4, h5, h6⟩ := cond_and_flags (flagField status)
  simp only [getLsbD_flagField, Nat.reduceLT] at h1 h2 h3 h4 h5 h6
  obtain rfl | rfl | rfl | rfl | rfl | rfl := hcond cond h0 h7
  · exact h1.symm
  · exact h2.symm
  · exact h3.symm
  · exact h4.symm
  · exact h5.symm
  · exact h6.symm

/-- Settles O10: the table is `taken` read at each condition. -/
theorem takenFollowsTheConditionTable : Obligations.TakenFollowsTheConditionTable :=
  fun status => ⟨rfl, rfl, rfl, rfl, rfl, rfl, rfl, rfl, fun _ h0 h7 => taken_eq_and status h0 h7⟩

/-! ### Quotient and remainder (R136) -/

theorem trunc16_mul (a b : Int) : trunc16 (a * b) = trunc16 a * trunc16 b := BitVec.ofInt_mul ..

theorem trunc16_toInt (a : Word) : trunc16 a.toInt = a := BitVec.ofInt_toInt

theorem quot_mul_add_rem {a b : Word} (hb : b ≠ 0) (sg : Signedness) : quot sg a b * b + rem sg a b = a := by
  cases sg with
  | signed =>
    have hrem : a.srem b = trunc16 (a.toInt.tmod b.toInt) := by
      rw [← BitVec.toInt_srem, trunc16_toInt]
    calc quot .signed a b * b + rem .signed a b
        = trunc16 (a.toInt.tdiv b.toInt) * trunc16 b.toInt + trunc16 (a.toInt.tmod b.toInt) := by
          rw [quot_signed hb, rem_signed hb, hrem, trunc16_toInt b]
      _ = trunc16 (a.toInt.tdiv b.toInt * b.toInt + a.toInt.tmod b.toInt) := by
          rw [← trunc16_mul]
          exact (BitVec.ofInt_add ..).symm
      _ = a := by rw [Int.tdiv_mul_add_tmod, trunc16_toInt]
  | unsigned =>
    rw [quot_unsigned hb, rem_unsigned hb]
    apply BitVec.eq_of_toNat_eq
    have := Nat.div_add_mod' a.toNat b.toNat
    have := a.isLt
    simp
    omega

/-- The signed remainder is smaller than the divisor and has the dividend's sign. -/
theorem rem_signed_bounds {a b : Word} (hb : b ≠ 0) :
    (rem .signed a b).toInt.natAbs < b.toInt.natAbs ∧
      ((rem .signed a b).toInt = 0 ∨ ((rem .signed a b).toInt < 0 ↔ a.toInt < 0)) := by
  have hb' : b.toInt ≠ 0 := fun h => hb (BitVec.eq_of_toInt_eq (by simpa using h))
  rw [rem_signed hb, BitVec.toInt_srem]
  constructor
  · rw [Int.natAbs_tmod]
    exact Nat.mod_lt _ (Int.natAbs_pos.mpr hb')
  · by_cases ha : a.toInt < 0
    · have hneg : 0 ≤ (-a.toInt).tmod b.toInt := Int.tmod_nonneg _ (by omega)
      rw [Int.neg_tmod] at hneg
      omega
    · have hnonneg : 0 ≤ a.toInt.tmod b.toInt := Int.tmod_nonneg _ (by omega)
      omega

theorem quot_signed_toInt {a b : Word} (hb : b ≠ 0) (h : ¬(a = 0x8000 ∧ b = 0xFFFF)) :
    (quot .signed a b).toInt = a.toInt.tdiv b.toInt := by
  have hfits : a ≠ BitVec.intMin 16 ∨ b ≠ -1#16 := not_and_or.mp h
  calc (quot .signed a b).toInt
      = (a.toInt.tdiv b.toInt).bmod (2 ^ 16) := by rw [quot_signed hb, trunc16, BitVec.toInt_ofInt]
    _ = (a.sdiv b).toInt := (BitVec.toInt_sdiv a b).symm
    _ = a.toInt.tdiv b.toInt := BitVec.toInt_sdiv_of_ne_or_ne a b hfits

/-- Settles O13, part by part; the overflow case is one closed pair of words. -/
theorem quotientTimesDivisorPlusRemainder : Obligations.QuotientTimesDivisorPlusRemainder := by
  intro a b hb
  refine ⟨quot_mul_add_rem hb, rem_signed_bounds hb, ?_, ?_⟩
  · split
    · next h =>
      obtain ⟨rfl, rfl⟩ := h
      decide
    · next h => exact quot_signed_toInt hb h
  · have hpos : 0 < b.toNat := Nat.pos_of_ne_zero fun h => hb (BitVec.eq_of_toNat_eq h)
    rw [rem_unsigned hb, quot_unsigned hb, BitVec.toNat_umod, BitVec.toNat_udiv]
    exact ⟨Nat.mod_lt _ hpos, rfl⟩

end Sys2Proof.Machine

/-! SUPPORT. The effects of compares, constants, jumps, loads, stores and traps (spec/42_compare.md to
spec/46_trap_rti_undefined.md). -/

namespace Sys2Proof.Machine

/-! ### Compares -/

/-- A three-way outcome is negative, zero or positive as the first, the second or the third of its cases holds. -/
theorem outcome_order {less equal greater : Prop} [Decidable less] [Decidable equal] {v : Word}
    (hv : v = if less then 0xFFFF else if equal then 0 else 1) (hless : less → ¬equal ∧ ¬greater)
    (hequal : equal → ¬greater) (hgreater : ¬less → ¬equal → greater) :
    (v.toInt < 0 ↔ less) ∧ (v = 0 ↔ equal) ∧ (0 < v.toInt ↔ greater) := by
  subst hv
  by_cases hl : less
  · obtain ⟨he, hg⟩ := hless hl
    rw [if_pos hl]
    exact ⟨iff_of_true (by decide) hl, iff_of_false (by decide) he, iff_of_false (by decide) hg⟩
  · rw [if_neg hl]
    by_cases he : equal
    · rw [if_pos he]
      exact ⟨iff_of_false (by decide) hl, iff_of_true rfl he, iff_of_false (by decide) (hequal he)⟩
    · rw [if_neg he]
      exact ⟨iff_of_false (by decide) hl, iff_of_false (by decide) he, iff_of_true (by decide) (hgreater hl he)⟩

/-- The outcome of a signed compare follows the exact order (R170, D10). -/
theorem compareSigned_order (a b : Word) :
    ((compareSigned a b).toInt < 0 ↔ a.toInt < b.toInt) ∧ (compareSigned a b = 0 ↔ a.toInt = b.toInt) ∧
      (0 < (compareSigned a b).toInt ↔ b.toInt < a.toInt) :=
  outcome_order rfl (by omega) (by omega) (by omega)

/-- The outcome of an unsigned compare follows the exact order (R170, D10). -/
theorem compareUnsigned_order (a b : Word) :
    ((compareUnsigned a b).toInt < 0 ↔ a.toNat < b.toNat) ∧ (compareUnsigned a b = 0 ↔ a.toNat = b.toNat) ∧
      (0 < (compareUnsigned a b).toInt ↔ b.toNat < a.toNat) :=
  outcome_order rfl (by omega) (by omega) (by omega)

/-- An instruction that ends in `finishCompare` completes with the flags of its outcome and writes no register. -/
theorem exec_compareEffect {i : Instr} {s : State} {v : Word} {less equal greater : Prop}
    (hexec : exec i s = .next (finishCompare s v))
    (hv : (v.toInt < 0 ↔ less) ∧ (v = 0 ↔ equal) ∧ (0 < v.toInt ↔ greater)) :
    ∃ t, exec i s = .next t ∧ CompareEffect s t less equal greater := by
  obtain ⟨hless, hequal, hgreater⟩ := hv
  have hflags : FlagsAre s (finishCompare s v) (v.toInt < 0) (v = 0) (0 < v.toInt) := flagsAre_withFlags rfl
  rw [FlagsAre, hless, hequal, hgreater] at hflags
  exact ⟨_, hexec,
    { registers := fun _ => rfl
      flags := hflags
      signals := by simp [finishCompare_eq]
      nextPc := rfl
      memory := fun _ => rfl
      rest := sameRest_finishCompare s v }⟩

theorem toInt_sext {n : Nat} (hn : n ≤ 16) (v : BitVec n) : (sext v).toInt = v.toInt :=
  BitVec.toInt_signExtend_of_le hn

theorem toNat_zext {n : Nat} (hn : n ≤ 16) (v : BitVec n) : (zext v).toNat = v.toNat :=
  BitVec.toNat_setWidth_of_le hn

/-- Settles O17: each compare ends in `finishCompare` with the outcome of its own order. -/
theorem comparesSetFlagsByTheExactOrder : Obligations.ComparesSetFlagsByTheExactOrder := by
  intro d q imm6 x y s a b
  refine ⟨⟨decode_cmp d q x, ?cmp⟩, ⟨decode_cmpu d q x, ?cmpu⟩, ⟨decode_cmpi d y imm6, ?cmpi⟩,
    ⟨decode_cmpiu d y imm6, ?cmpiu⟩⟩
  case cmp => exact exec_compareEffect rfl (compareSigned_order a b)
  case cmpu => exact exec_compareEffect rfl (compareUnsigned_order a b)
  case cmpi =>
    have horder := compareSigned_order a (sext imm6)
    rw [toInt_sext (by decide)] at horder
    exact exec_compareEffect rfl horder
  case cmpiu =>
    have horder := compareUnsigned_order a (zext imm6)
    rw [toNat_zext (by decide)] at horder
    exact exec_compareEffect rfl horder

/-! ### Constants -/

theorem highByteOver_eq_append (a : Word) (u8 : Byte) : highByteOver a u8 = u8 ++ a.extractLsb' 0 8 := by
  apply BitVec.eq_of_getLsbD_eq
  intro b hb
  interval_cases b <;> simp only [highByteOver, zext, BitVec.getLsbD_or, BitVec.getLsbD_append] <;> simp

/-- Settles O18: both end in `finishResult`. -/
theorem constAndHiconstBuildConstants : Obligations.ConstAndHiconstBuildConstants := by
  intro d imm9 u8 x s
  refine ⟨⟨decode_const d imm9, ?const⟩, ⟨decode_hiconst d u8 x, ?hiconst⟩⟩
  case const => exact exec_resultEffect rfl (sext_eq_trunc16 imm9)
  case hiconst => exact exec_resultEffect rfl (highByteOver_eq_append _ u8)

/-! ### Jumps and subroutine jumps -/

theorem baseOffset_eq_trunc16 (base : Word) (imm6 : BitVec 6) :
    baseOffset base (sext imm6) = trunc16 (base.toNat + imm6.toInt) := by
  calc base + sext imm6
      = trunc16 base.toNat + trunc16 imm6.toInt := by rw [trunc16_toNat, sext_eq_trunc16]
    _ = trunc16 (base.toNat + imm6.toInt) := (BitVec.ofInt_add ..).symm

theorem effAddr_toNat (s : State) (r : RegIdx) (imm6 : BitVec 6) :
    ((effAddr s r imm6).toNat : Int) = ((readReg s r).toNat + imm6.toInt) % 65536 := by
  rw [effAddr, baseOffset_eq_trunc16, toNat_trunc16]

/-- Settles O20: both change `pc` alone. -/
theorem jumpsGoToTheirTargets : Obligations.JumpsGoToTheirTargets := by
  intro r imm6 imm11 x s
  refine ⟨⟨decode_jmp _, ?jmp⟩, ⟨decode_jmpr x r imm6, ?jmpr⟩⟩
  case jmp => exact ⟨_, rfl, transferEffect_jumpTo (relTarget_eq_trunc16 s.pc imm11)⟩
  case jmpr => exact ⟨_, rfl, transferEffect_jumpTo (baseOffset_eq_trunc16 _ imm6)⟩

/-- The link and a jump are the effect of R135 but for the target. -/
theorem resultEffect_jumpTo_linkCall (s : State) (target : Word) :
    ResultEffect s (jumpTo (linkCall s) target) 7 (s.pc + 1) s.sig target where
  registers := readReg_linkCall s
  flags := flagsAre_withFlags rfl
  signals := by simp [linkCall_eq, succWord]
  nextPc := rfl
  memory := fun _ => rfl
  rest := sameRest_jumpTo_linkCall s target

/-- Settles O21: JSRR reads its base after the link is written. -/
theorem subroutineJumpsLinkThenJump : Obligations.SubroutineJumpsLinkThenJump := by
  intro r imm6 imm11 x s
  refine ⟨⟨decode_jsr imm11, _, rfl, resultEffect_jumpTo_linkCall s _, ?jsr⟩,
    ⟨decode_jsrr x r imm6, _, rfl, resultEffect_jumpTo_linkCall s _, ?jsrr⟩⟩
  case jsr => rw [jumpTo_pc, relTarget_eq_trunc16, toNat_trunc16]
  case jsrr =>
    rw [jumpTo_pc, effAddr_toNat, readReg_linkCall]
    rfl

/-! ### Loads and stores -/

theorem resultEffect_load (s : State) (d : RegIdx) (a v : Word) :
    ResultEffect s (advance (noteLoad (writeResult s d v) a v)) d v { s.sig with memAddr := a, memVal := v } (s.pc + 1) where
  registers := fun r => readReg_writeReg s d r v
  flags := flagsAre_withFlags rfl
  signals := by simp [writeResult]
  nextPc := rfl
  memory := fun _ => rfl
  rest := sameRest_load s d v a

/-- Settles O22: the loaded word is the result of `resultEffect_load`. -/
theorem loadReadsTheWordAtBasePlusOffset : Obligations.LoadReadsTheWordAtBasePlusOffset :=
  fun d r imm6 s => ⟨decode_ldr d r imm6, effAddr_toNat s r imm6, _, rfl, resultEffect_load s d _ _⟩

/-- Settles O23: the memory clauses are read after write, word by word and cell by cell. -/
theorem storeWritesTheWordAtBasePlusOffset : Obligations.StoreWritesTheWordAtBasePlusOffset := by
  intro d r imm6 s ea
  refine ⟨decode_str d r imm6, effAddr_toNat s r imm6, _, rfl, ?word, ?cells, ?words, fun _ => rfl, rfl, rfl, rfl,
    sameRest_store s _ _⟩
  case word => exact memRead_memWrite_same s ea (readReg s d)
  case cells =>
    intro k hlow hhigh
    rw [advance_mem, memWrite_mem, readByte_writeWord, if_neg hhigh, if_neg hlow]
  case words =>
    intro a ha
    rw [advance_mem, memWrite_mem, readWord_writeWord, if_neg ha]

/-! ### Traps -/

theorem vectorFrom_eq_append (u8 : Byte) : vectorFrom trapBase u8 = 0x80#8 ++ u8 := by
  apply BitVec.eq_of_getLsbD_eq
  intro b hb
  interval_cases b <;> simp only [vectorFrom, trapBase, zext, BitVec.getLsbD_or, BitVec.getLsbD_append] <;> simp

/-- The trap page starts at a multiple of 256, so the vector is the base plus the number (R220). -/
theorem vectorFrom_toNat (u8 : Byte) : (vectorFrom trapBase u8).toNat = 0x8000 + u8.toNat := by
  rw [vectorFrom_eq_append, BitVec.toNat_append, ← Nat.shiftLeft_add_eq_or_of_lt u8.isLt]
  rfl

/-- Trap entry over a flag write: N, Z and P are the code's bits, the mode bit standing above them. -/
theorem getLsbD_withPriv_withFlags (status : Word) (code : BitVec 3) {b : Nat} (hb : b < 3) :
    (withPriv (withFlags status code)).getLsbD b = code.getLsbD b := by
  have hne : b ≠ 3 := Nat.ne_of_lt hb
  simp [getLsbD_withPriv, getLsbD_withFlags, hb, hne]

/-- Settles O24; the flag clause by the value of `TRAP_SETS_FLAGS`. -/
theorem trapEntersSupervisorMode : Obligations.TrapEntersSupervisorMode := by
  intro u8 x s
  refine ⟨decode_trap u8 x, _, rfl, readReg_enterTrap s u8, flagPriv_enterTrap s u8, ?high, ?flags, ?vector, ?memory,
    sameRest_enterTrap s u8⟩
  case high =>
    intro b hb
    have hne : b ≠ 3 := by omega
    rw [enterTrap_eq]
    split <;> simp [getLsbD_withPriv, getLsbD_withFlags_of_le, hne, Nat.le_of_succ_le hb]
  case flags =>
    rw [enterTrap_eq]
    split
    · obtain ⟨hneg, hzero, hpos⟩ := getLsbD_flagCode_iff (succWord s.pc)
      simp only [flagN, flagZ, flagP, getLsbD_withPriv_withFlags, Nat.reduceLT, flagField_withPriv, flagField_withFlags]
      exact ⟨hneg, hzero, hpos, rfl⟩
    · exact ⟨flagField_withPriv s.status, rfl⟩
  case vector =>
    rw [enterTrap_eq]
    exact vectorFrom_toNat u8
  case memory =>
    intro k
    rw [enterTrap_eq]

end Sys2Proof.Machine

/-! SUPPORT. Steps and runs (spec/40_datapath.md R100 to R103, R128, R129): totality, the halt check, the records, and the
unassigned opcodes. -/

namespace Sys2Proof.Machine

/-! ### Executing states -/

theorem executes_iff (s : State) : s.executes = true ↔ s.run = .running ∧ s.pc ≠ haltAddr := by
  simp [State.executes]

theorem step_of_executes {s : State} (h : s.executes = true) : step s = exec (decode (fetch s)) (beforeHandler s) := by
  obtain ⟨hrun, hpc⟩ := (executes_iff s).mp h
  exact step_of_running hrun hpc

theorem not_executes_of_halted {s : State} (h : s.run = .halted) : s.executes = false := by
  simp [State.executes, h]

theorem not_executes_of_sentinel {s : State} (h : s.pc = haltAddr) : s.executes = false := by
  simp [State.executes, h]

/-- Settles O27: `step_of_running`, with `beforeHandler` and `fetch` written out. -/
theorem stepRunsTheDecodedInstruction : Obligations.StepRunsTheDecodedInstruction :=
  fun _ hrun hpc => step_of_running hrun hpc

/-! ### The unassigned opcodes -/

/-- The opcode field of a word whose class is given as the quotient by 4096. -/
theorem opField_of_div {w : Word} {op : BitVec 4} (h : w.toNat / 4096 = op.toNat) : opField w = op :=
  BitVec.eq_of_toNat_eq ((opField_toNat w).trans h)

/-- Everything an executed word that only advances `pc` does. -/
theorem step_of_advance {s : State} (hrun : s.run = .running) (hpc : s.pc ≠ haltAddr) {i : Instr}
    (hdecode : decode (fetch s) = i) (hexec : exec i (beforeHandler s) = .next (advance (beforeHandler s))) :
    step s = .next
      { s with
        pc := s.pc + 1, sig := Signals.cleared, trace := { pc := s.pc, insn := fetch s, sig := s.sig } :: s.trace } := by
  rw [step_of_running hrun hpc, hdecode, hexec]
  rfl

/-- Settles O26: the three opcodes decode to instructions that end in `advance`. -/
theorem unassignedOpcodesOnlyAdvance : Obligations.UnassignedOpcodesOnlyAdvance := by
  refine ⟨fun s => ⟨⟨_, rfl, transferEffect_advance s⟩, ⟨_, rfl, transferEffect_advance s⟩,
    ⟨_, rfl, transferEffect_advance s⟩⟩, ?_⟩
  rintro s hrun hpc (h | h | h)
  · exact step_of_advance hrun hpc (decode_of_opField_three (opField_of_div h)) rfl
  · exact step_of_advance hrun hpc (decode_of_opField_eleven (opField_of_div h)) rfl
  · exact step_of_advance hrun hpc (decode_of_opField_fourteen (opField_of_div h)) rfl

/-! ### Every step answers a next state -/

theorem exec_total (i : Instr) (s : State) : ∃ t, exec i s = .next t := by
  cases i <;> exact ⟨_, rfl⟩

theorem step_total (s : State) : ∃ t, step s = .next t := by
  cases hrun : s.run with
  | halted => exact ⟨s, step_of_halted hrun⟩
  | running =>
    by_cases hpc : s.pc = haltAddr
    · exact ⟨halt s, step_of_sentinel hrun hpc⟩
    · rw [step_of_running hrun hpc]
      exact exec_total _ _

/-- Settles O31, by induction on the number of steps. -/
theorem everyRunIsSafe : Obligations.EveryRunIsSafe := by
  intro k
  induction k with
  | zero => exact fun s => ⟨s, run_zero s⟩
  | succ k ih =>
    intro s
    obtain ⟨u, hstep⟩ := step_total s
    obtain ⟨t, hrun⟩ := ih u
    exact ⟨t, (run_succ_of_step hstep k).trans hrun⟩

/-! ### The halt check -/

theorem run_of_halted {s : State} (hrun : s.run = .halted) (k : Nat) : Host.Core.run core k s = .next s := by
  induction k with
  | zero => exact run_zero s
  | succ k ih => rw [run_succ_of_step (step_of_halted hrun), ih]

/-- Settles O30: the step at the sentinel halts, and every later one leaves the halted state. -/
theorem reachingTheSentinelEndsTheRun : Obligations.ReachingTheSentinelEndsTheRun := by
  refine fun k s => ⟨fun hrun => run_of_halted hrun k, fun hrun hpc => ?_⟩
  rw [run_succ_of_step (step_of_sentinel hrun hpc), run_of_halted (halt_run s)]
  rfl

theorem enterTrap_pc (s : State) (u8 : Byte) : (enterTrap s u8).pc = vectorFrom trapBase u8 := by
  rw [enterTrap_eq]

theorem vectorFrom_haltAddr : vectorFrom trapBase 0xFF = haltAddr := by decide

/-- Settles O49: the vector of 0xFF is the sentinel, where the second step halts. -/
theorem trapToTheSentinelHaltsNextStep : Obligations.TrapToTheSentinelHaltsNextStep := by
  intro s hexecutes hdecode
  have hstep : step s = .next (enterTrap (beforeHandler s) 0xFF) := by
    rw [step_of_executes hexecutes, hdecode]
    rfl
  obtain ⟨hrun, -⟩ := (executes_iff s).mp hexecutes
  obtain ⟨hsame, -, -⟩ := sameRest_enterTrap (beforeHandler s) 0xFF
  have hrunning : (enterTrap (beforeHandler s) 0xFF).run = .running := hsame.trans hrun
  have hpc : (enterTrap (beforeHandler s) 0xFF).pc = haltAddr := (enterTrap_pc _ _).trans vectorFrom_haltAddr
  refine ⟨halt (enterTrap (beforeHandler s) 0xFF), ?_, rfl, hpc⟩
  rw [run_succ_of_step hstep, run_succ_of_step (step_of_sentinel hrunning hpc), run_zero]

/-! ### The records -/

/-- A step that executes puts its record before those already out; the others put out none (R128). -/
theorem step_trace {s t : State} (h : step s = .next t) :
    t.trace = (if s.executes then [traceRecord s] else []) ++ s.trace := by
  obtain ⟨hrun, rfl⟩ | ⟨-, hpc, rfl⟩ | ⟨hrun, hpc, hexec⟩ := step_cases h
  · simp [not_executes_of_halted hrun]
  · simp [not_executes_of_sentinel hpc]
  · obtain ⟨-, htrace, -⟩ := sameRest_exec hexec
    rw [htrace, if_pos ((executes_iff s).mpr ⟨hrun, hpc⟩)]
    rfl

theorem recordsOf_succ {s u : State} (h : step s = .next u) (k : Nat) :
    recordsOf (k + 1) s = recordsOf k u ++ (if s.executes then [traceRecord s] else []) := by
  simp only [recordsOf, h]

/-- Settles O44, by induction on the number of steps. -/
theorem aRunPutsOutOneRecordPerExecutedStep : Obligations.ARunPutsOutOneRecordPerExecutedStep := by
  intro k
  induction k with
  | zero =>
    intro s t h
    cases h
    rfl
  | succ k ih =>
    intro s t h
    obtain ⟨u, hstep, hrun⟩ := run_succ_cases h
    rw [ih u t hrun, step_trace hstep, recordsOf_succ hstep, List.append_assoc]

/-- The record list is an output: another list before an instruction is the same list after it, and no more. -/
theorem exec_with_trace {i : Instr} {s t : State} (h : exec i s = .next t) (l : List TraceRecord) :
    exec i { s with trace := l } = .next { t with trace := l } := by
  cases i with
  | brp imm9 | brz imm9 | brzp imm9 | brn imm9 | brnp imm9 | brnz imm9 | brnzp imm9 =>
    cases h
    exact congrArg Host.Outcome.next (by rw [branchOn_eq, branchOn_eq])
  | trap u8 =>
    cases h
    exact congrArg Host.Outcome.next (by rw [enterTrap_eq, enterTrap_eq])
  | nop | undefOp3 | undefOp11 | undefOp14 | jmp | jmpr | add | mul | sub | div | addi | and | not | or | xor | andi
  | sll | sra | srl | mod | const | hiconst | cmp | cmpu | cmpi | cmpiu | jsr | jsrr | ldr | str | rti =>
    cases h
    rfl

theorem step_trace_of_executes {s t : State} (hexecutes : s.executes = true) (h : step s = .next t) :
    t.trace = traceRecord s :: s.trace := by
  rw [step_trace h, if_pos hexecutes]
  rfl

/-- The state after an executed step is the instruction's from the cleared snapshot, but for the records. -/
theorem step_eq_exec_cleared {s t v : State} (hexecutes : s.executes = true)
    (hexec : exec (decode (fetch s)) { s with sig := Signals.cleared } = .next v) (h : step s = .next t) :
    t = { v with trace := traceRecord s :: s.trace } := by
  have hwith := exec_with_trace hexec (traceRecord s :: s.trace)
  have hstep : step s = .next { v with trace := traceRecord s :: s.trace } := (step_of_executes hexecutes).trans hwith
  rw [hstep] at h
  exact (Host.Outcome.next.inj h).symm

theorem executes_resetFrom (p : Params) (image : Word → Word) : (resetFrom p image).executes = true :=
  (executes_iff _).mpr ⟨resetFrom_run p image, by rw [resetFrom_pc]; decide⟩

/-- Settles O45: the second record reads the first step's result, whose snapshot is the first instruction's. -/
theorem theTraceLagsOneStep : Obligations.TheTraceLagsOneStep := by
  refine ⟨fun s t u v hs ht hexec hst htu => ?_, fun p image t h => ?_⟩
  · have hsig : t.sig = v.sig := by rw [step_eq_exec_cleared hs hexec hst]
    rw [step_trace_of_executes ht htu, step_trace_of_executes hs hst, ← hsig]
    rfl
  · rw [step_trace_of_executes (executes_resetFrom p image) h, traceRecord, fetch, memRead, readWord_resetFrom]
    rfl

end Sys2Proof.Machine

/-! SUPPORT. Memory over steps and runs (spec/20_memory.md R51, R59, R62), the canonical form, and reset. -/

namespace Sys2Proof.Machine

/-! ### Stores -/

theorem storeOf_of_str {s : State} {d r : RegIdx} {imm6 : BitVec 6} (hexecutes : s.executes = true)
    (hdecode : decode (fetch s) = .str d r imm6) : storeOf s = some (effAddr s r imm6, readReg s d) := by
  simp [storeOf, hexecutes, hdecode]

theorem storeOf_of_not_executes {s : State} (h : s.executes = false) : storeOf s = none := by
  simp [storeOf, h]

theorem storeOf_of_ne_str {s : State} (h : ∀ d r imm6, decode (fetch s) ≠ .str d r imm6) : storeOf s = none := by
  unfold storeOf
  split
  · split
    · next d r imm6 hdecode => exact absurd hdecode (h d r imm6)
    · rfl
  · rfl

/-- The word at `a` over an earlier word: the store's value where the store is to `a`. -/
def afterStore (store : Option (Word × Word)) (a old : Word) : Word :=
  match store with
  | some (b, v) => if b = a then v else old
  | none => old

/-- A step that executes a store leaves it in memory, and every other step leaves memory (R51, R59). -/
theorem step_readWord {s t : State} (h : step s = .next t) (a : Word) :
    readWord t.mem a = afterStore (storeOf s) a (readWord s.mem a) := by
  obtain ⟨hrun, rfl⟩ | ⟨-, hpc, rfl⟩ | ⟨hrun, hpc, hexec⟩ := step_cases h
  · rw [storeOf_of_not_executes (not_executes_of_halted hrun)]
    rfl
  · rw [storeOf_of_not_executes (not_executes_of_sentinel hpc)]
    rfl
  · by_cases hstr : ∃ d r imm6, decode (fetch s) = .str d r imm6
    · obtain ⟨d, r, imm6, hdecode⟩ := hstr
      rw [hdecode] at hexec
      cases hexec
      rw [storeOf_of_str ((executes_iff s).mpr ⟨hrun, hpc⟩) hdecode]
      simp only [afterStore, advance_mem, memWrite_mem, readWord_writeWord, eq_comm (a := a)]
      rfl
    · have hne : ∀ d r imm6, decode (fetch s) ≠ .str d r imm6 := fun d r imm6 hdecode => hstr ⟨d, r, imm6, hdecode⟩
      rw [storeOf_of_ne_str hne, mem_of_execShape (execShape_of_exec hexec) hne]
      rfl

theorem lastStore_succ {s u : State} (h : step s = .next u) (k : Nat) (a old : Word) :
    (lastStore (k + 1) s a).getD old = (lastStore k u a).getD (afterStore (storeOf s) a old) := by
  simp only [lastStore, h, afterStore]
  cases lastStore k u a with
  | some v => rfl
  | none =>
    cases storeOf s with
    | none => rfl
    | some store =>
      obtain ⟨b, v⟩ := store
      by_cases hb : b = a <;> simp [hb]

/-- After a run every word is the last store to it, by induction on the number of steps. -/
theorem run_readWord (k : Nat) {s t : State} (h : Host.Core.run core k s = .next t) (a : Word) :
    readWord t.mem a = (lastStore k s a).getD (readWord s.mem a) := by
  induction k generalizing s with
  | zero =>
    cases h
    rfl
  | succ k ih =>
    obtain ⟨u, hstep, hrun⟩ := run_succ_cases h
    rw [ih hrun, step_readWord hstep, lastStore_succ hstep]

/-- Settles O42: a load reads the word the run left. -/
theorem memoryHoldsTheLastStoreOfARun : Obligations.MemoryHoldsTheLastStoreOfARun := by
  refine fun k s t h => ⟨run_readWord k h, fun d r imm6 u hload => ?_⟩
  cases hload
  rw [← run_readWord k h]
  exact (readReg_writeReg t d d _).trans (if_pos rfl)

/-- Settles O43: the store's word is the next one fetched, since the store went to the next `pc`. -/
theorem theNextFetchSeesTheStore : Obligations.TheNextFetchSeesTheStore := by
  intro s t d r imm6 hexecutes hdecode haddr hpc h
  obtain ⟨hrun, -⟩ := (executes_iff s).mp hexecutes
  have hstore : step s = .next (advance (memWrite (beforeHandler s) (effAddr s r imm6) (readReg s d))) := by
    rw [step_of_executes hexecutes, hdecode]
    rfl
  have ht : advance (memWrite (beforeHandler s) (s.pc + 1) (readReg s d)) = t :=
    Host.Outcome.next.inj ((haddr ▸ hstore).symm.trans h)
  have hfetch : fetch t = readReg s d := by
    rw [← ht]
    exact memRead_memWrite_same (beforeHandler s) (s.pc + 1) (readReg s d)
  have hrun' : t.run = .running := by rw [← ht]; exact hrun
  have hpc' : t.pc ≠ haltAddr := by rw [← ht]; exact hpc
  exact ⟨hfetch, by rw [step_of_running hrun' hpc', hfetch]⟩

/-! ### The canonical form -/

theorem readByte_of_lt {m : Memory} {n k : Nat} (h : wfFrom n m = true) (hk : k < n) : readByte m k = unlisted := by
  induction m generalizing n with
  | nil => rfl
  | cons c rest ih =>
    obtain ⟨k', v⟩ := c
    obtain ⟨hn, -, -, hrest⟩ := (wfFrom_cons n k' v rest).mp h
    rw [readByte_cons, if_neg (by omega)]
    exact ih hrest (by omega)

theorem readByte_of_ge {m : Memory} {n k : Nat} (h : wfFrom n m = true) (hk : cellCount ≤ k) :
    readByte m k = unlisted := by
  induction m generalizing n with
  | nil => rfl
  | cons c rest ih =>
    obtain ⟨k', v⟩ := c
    obtain ⟨-, hlt, -, hrest⟩ := (wfFrom_cons n k' v rest).mp h
    rw [readByte_cons, if_neg (by omega)]
    exact ih hrest

theorem readByte_head (k : Nat) (v : Byte) (m : Memory) : readByte ((k, v) :: m) k = v := if_pos rfl

/-- A key that another canonical list lists too is not below that list. -/
theorem le_of_readByte_head {m m' : Memory} {k n' : Nat} {v : Byte} (hv : v ≠ unlisted) (h' : wfFrom n' m' = true)
    (hread : readByte ((k, v) :: m) k = readByte m' k) : n' ≤ k := by
  by_contra hlt
  rw [readByte_head, readByte_of_lt h' (Nat.lt_of_not_le hlt)] at hread
  exact hv hread

/-- A canonical list with a listed cell does not read like the empty one. -/
theorem not_readByte_eq_nil {m : Memory} {k : Nat} {v : Byte} (hv : v ≠ unlisted) :
    ¬ ∀ j, readByte ((k, v) :: m) j = readByte [] j :=
  fun hread => hv ((readByte_head k v m).symm.trans (hread k))

/-- Lists in canonical form that read alike cell by cell are equal: their first keys bound each other. -/
theorem eq_of_readByte_eq {m m' : Memory} {n n' : Nat} (h : wfFrom n m = true) (h' : wfFrom n' m' = true)
    (hread : ∀ k, readByte m k = readByte m' k) : m = m' := by
  induction m generalizing m' n n' with
  | nil =>
    match m' with
    | [] => rfl
    | (k', v') :: rest' =>
      obtain ⟨-, -, hv', -⟩ := (wfFrom_cons n' k' v' rest').mp h'
      exact absurd (fun j => (hread j).symm) (not_readByte_eq_nil hv')
  | cons c rest ih =>
    obtain ⟨k, v⟩ := c
    obtain ⟨-, hk, hv, hrest⟩ := (wfFrom_cons n k v rest).mp h
    match m' with
    | [] => exact absurd hread (not_readByte_eq_nil hv)
    | (k', v') :: rest' =>
      obtain ⟨-, hk', hv', hrest'⟩ := (wfFrom_cons n' k' v' rest').mp h'
      have hfrom : wfFrom k ((k, v) :: rest) = true := (wfFrom_cons k k v rest).mpr ⟨le_rfl, hk, hv, hrest⟩
      have hfrom' : wfFrom k' ((k', v') :: rest') = true := (wfFrom_cons k' k' v' rest').mpr ⟨le_rfl, hk', hv', hrest'⟩
      obtain rfl : k = k' :=
        le_antisymm (le_of_readByte_head hv' hfrom (hread k').symm) (le_of_readByte_head hv hfrom' (hread k))
      obtain rfl : v = v' := by
        have hhead := hread k
        rwa [readByte_head, readByte_head] at hhead
      have hrests : ∀ j, readByte rest j = readByte rest' j := by
        intro j
        by_cases hj : j = k
        · rw [readByte_of_lt hrest (by omega), readByte_of_lt hrest' (by omega)]
        · have htail := hread j
          rwa [readByte_cons, readByte_cons, if_neg hj, if_neg hj] at htail
      rw [ih hrest hrest' hrests]

theorem readByte_lowKey (m : Memory) (a : Word) : readByte m (lowKey a) = (readWord m a).extractLsb' 0 8 :=
  BitVec.extractLsb'_append_eq_right.symm

theorem readByte_highKey (m : Memory) (a : Word) : readByte m (highKey a) = (readWord m a).extractLsb' 8 8 :=
  BitVec.extractLsb'_append_eq_left.symm

/-- Every cell of the address space is a half of some word. -/
theorem exists_word_of_key {k : Nat} (hk : k < cellCount) : ∃ a : Word, k = lowKey a ∨ k = highKey a := by
  have hbound : k / 2 < 65536 := by
    unfold cellCount at hk
    omega
  refine ⟨BitVec.ofNat 16 (k / 2), ?_⟩
  rw [lowKey, highKey, BitVec.toNat_ofNat, Nat.mod_eq_of_lt hbound]
  omega

/-- Settles O46: the words give the cells of the address space, and the canonical form lists no others. -/
theorem canonicalMemoriesThatReadAlikeAreEqual : Obligations.CanonicalMemoriesThatReadAlikeAreEqual := by
  intro m m' h h' hread
  refine eq_of_readByte_eq h h' fun k => ?_
  by_cases hk : k < cellCount
  · obtain ⟨a, rfl | rfl⟩ := exists_word_of_key hk
    · rw [readByte_lowKey, readByte_lowKey, hread a]
    · rw [readByte_highKey, readByte_highKey, hread a]
  · rw [readByte_of_ge h (Nat.le_of_not_lt hk), readByte_of_ge h' (Nat.le_of_not_lt hk)]

/-! ### Reset -/

/-- A state with a legal memory and a reset status, snapshot and run state is legal. -/
theorem legal_reset_with (mem : Memory) (p : Params) (hmem : mem.wf = true) :
    State.legal { State.reset with mem := mem, params := p } = true :=
  (legal_iff _).mpr ⟨hmem, legalStatus_zero, rfl, .inl rfl, by simp⟩

/-- Settles O34: the image's memory is canonical, and a cleared snapshot mirrors nothing. -/
theorem resetMeetsBothInvariants : Obligations.ResetMeetsBothInvariants :=
  ⟨legal_reset_with [] defaultParams wf_nil, mirrored_of_cleared rfl, fun p image =>
    ⟨legal_reset_with (imageMemory image) p (wf_imageMemory image), mirrored_of_cleared (resetFrom_sig p image)⟩⟩

/-- The image that is zero everywhere lists no cell. -/
theorem imageUpTo_zero (n : Nat) : imageUpTo (fun _ => 0x0000) n = [] := by
  induction n with
  | zero => rfl
  | succ n ih =>
    rw [imageUpTo, ih]
    rfl

/-- Settles O36: writing zeros lists no cell. -/
theorem theFixedResetIsTheDefaultOne : Obligations.TheFixedResetIsTheDefaultOne := by
  have himage : imageMemory (fun _ => 0x0000) = [] := imageUpTo_zero 65536
  rw [Obligations.TheFixedResetIsTheDefaultOne, resetFrom, himage]
  rfl

/-- Settles O37: whatever the image, the fields but memory are those of `State.reset`. -/
theorem resetInputKeepsMemoryWithoutAnImage : Obligations.ResetInputKeepsMemoryWithoutAnImage :=
  fun _ image => ⟨fun _ => ⟨rfl, readReg_reset, rfl, rfl, rfl⟩, rfl, readWord_imageMemory image⟩

end Sys2Proof.Machine

/-! SUPPORT. The datapath's tables against the instruction rules (spec/40_datapath.md sections 3 to 7): what the write-back does
for each kind of control lines, from a cleared snapshot. -/

namespace Sys2Proof.Machine

section Datapath

variable {s : State} {i : Instr}

/-! ### Control lines with a result: the register, the flags and the snapshot of `finishResult` -/

theorem datapathExec_of_twoPort {fn : AluFn} {d r q : RegIdx} (hsig : s.sig = Signals.cleared)
    (hc : controlOf s.params i = twoPortControl fn d r q) :
    datapathExec i s = finishResult s d (alu s.params.divSignedness fn (readReg s r) (readReg s q)) := by
  rw [datapathExec, hc, finishResult_eq, hsig]
  rfl

theorem datapathExec_of_immediate {fn : AluFn} {d r : RegIdx} {v : Word} (hsig : s.sig = Signals.cleared)
    (hc : controlOf s.params i = immediateControl fn d r v) :
    datapathExec i s = finishResult s d (alu s.params.divSignedness fn (readReg s r) v) := by
  rw [datapathExec, hc, finishResult_eq, hsig]
  rfl

theorem datapathExec_not (d r : RegIdx) (hsig : s.sig = Signals.cleared) :
    datapathExec (.not d r) s = finishResult s d (~~~(readReg s r)) := by
  rw [finishResult_eq, hsig]
  rfl

theorem datapathExec_const (d : RegIdx) (imm9 : BitVec 9) (hsig : s.sig = Signals.cleared) :
    datapathExec (.const d imm9) s = finishResult s d (sext imm9) := by
  rw [finishResult_eq, hsig]
  rfl

/-! ### Compares, transfers, links -/

theorem datapathExec_of_compare {fn : AluFn} {d : RegIdx} {portB : Option RegIdx} {b : BSource}
    (hsig : s.sig = Signals.cleared) (hc : controlOf s.params i = compareControl fn d portB b) :
    datapathExec i s =
      finishCompare s (alu s.params.divSignedness fn (readReg s d) (bOperand (compareControl fn d portB b) s)) := by
  rw [datapathExec, hc, finishCompare_eq, hsig]
  rfl

/-- Control lines that assert no port change `pc` alone. -/
theorem datapathExec_of_branch {cond : BitVec 3} {imm9 : BitVec 9} (hsig : s.sig = Signals.cleared)
    (hc : controlOf s.params i = branchControl cond imm9) : datapathExec i s = branchOn cond imm9 s := by
  rw [datapathExec, hc, branchOn_eq, hsig]
  rfl

theorem datapathExec_idle (hsig : s.sig = Signals.cleared) (hc : controlOf s.params i = Control.idle) :
    datapathExec i s = advance s := by
  rw [datapathExec, hc, advance, jumpTo, hsig]
  rfl

theorem datapathExec_jmp (imm11 : BitVec 11) (hsig : s.sig = Signals.cleared) :
    datapathExec (.jmp imm11) s = jumpTo s (relTarget s.pc (sext imm11)) := by
  rw [jumpTo, hsig]
  rfl

theorem datapathExec_jmpr (r : RegIdx) (imm6 : BitVec 6) (hsig : s.sig = Signals.cleared) :
    datapathExec (.jmpr r imm6) s = jumpTo s (effAddr s r imm6) := by
  rw [jumpTo, hsig]
  rfl

theorem datapathExec_jsr (imm11 : BitVec 11) (hsig : s.sig = Signals.cleared) :
    datapathExec (.jsr imm11) s = jumpTo (linkCall s) (relTarget s.pc (sext imm11)) := by
  rw [linkCall_eq, hsig]
  rfl

/-- The bypass of R112 is the order of R201: a base of R7 is the link. -/
theorem datapathExec_jsrr (r : RegIdx) (imm6 : BitVec 6) (hsig : s.sig = Signals.cleared) :
    datapathExec (.jsrr r imm6) s = jumpTo (linkCall s) (effAddr (linkCall s) r imm6) := by
  have hportA : portAValue (controlOf s.params (.jsrr r imm6)) s = if r = linkReg then succWord s.pc else readReg s r := by
    simp [portAValue, controlOf]
  rw [effAddr, readReg_linkCall, ← hportA, linkCall_eq, hsig]
  rfl

/-! ### Memory, traps -/

/-- Everything a load does (R210). -/
theorem load_eq (s : State) (d : RegIdx) (a v : Word) :
    advance (noteLoad (writeResult s d v) a v) =
      { s with
        pc := succWord s.pc
        regs := s.regs.set d.toNat v d.isLt
        status := withFlags s.status (flagCode v)
        sig :=
          { s.sig with
            regWE := true, regSel := d, regIn := v, flagWE := true, flagOut := flagCode v,
            memAddr := a, memVal := v } } := rfl

/-- Everything a store does (R211). -/
theorem store_eq (s : State) (a v : Word) :
    advance (memWrite s a v) =
      { s with
        pc := succWord s.pc
        mem := writeWord s.mem a v
        sig := { s.sig with memWE := true, memAddr := a, memVal := v } } := rfl

theorem datapathExec_ldr (d r : RegIdx) (imm6 : BitVec 6) (hsig : s.sig = Signals.cleared) :
    datapathExec (.ldr d r imm6) s =
      advance (noteLoad (writeResult s d (memRead s (effAddr s r imm6))) (effAddr s r imm6)
        (memRead s (effAddr s r imm6))) := by
  rw [load_eq, hsig]
  rfl

theorem datapathExec_str (d r : RegIdx) (imm6 : BitVec 6) (hsig : s.sig = Signals.cleared) :
    datapathExec (.str d r imm6) s = advance (memWrite s (effAddr s r imm6) (readReg s d)) := by
  rw [store_eq, hsig]
  rfl

theorem datapathExec_rti (hsig : s.sig = Signals.cleared) : datapathExec .rti s = returnFromTrap s := by
  rw [returnFromTrap_eq, hsig]
  rfl

theorem datapathExec_trap (u8 : Byte) (hsig : s.sig = Signals.cleared) :
    datapathExec (.trap u8) s = enterTrap s u8 := by
  rw [enterTrap_eq, hsig, datapathExec, controlOf]
  cases s.params.trapSetsFlags with
  | true => rfl
  | false => rfl

/-! ### The ALU's shifts take their amount from a zero-extended field (R149) -/

section Shifts

variable (sg : Signedness) (a : Word) (u4 : BitVec 4)

theorem alu_sll : alu sg .sll a (zext u4) = shiftLeft a u4 := by
  rw [alu, toNat_zext (by decide), shiftLeft]

theorem alu_sra : alu sg .sra a (zext u4) = shiftRightArith a u4 := by
  rw [alu, toNat_zext (by decide), shiftRightArith]

theorem alu_srl : alu sg .srl a (zext u4) = shiftRightLogic a u4 := by
  rw [alu, toNat_zext (by decide), shiftRightLogic]

end Shifts

/-- Settles O38, by the kind of control lines each instruction has. -/
theorem datapathTablesAgreeWithTheInstructionRules : Obligations.DatapathTablesAgreeWithTheInstructionRules := by
  intro i s hsig
  cases i with
  | nop | brp | brz | brzp | brn | brnp | brnz | brnzp =>
    rw [datapathExec_of_branch hsig rfl]
    rfl
  | undefOp3 | undefOp11 | undefOp14 =>
    rw [datapathExec_idle hsig rfl]
    rfl
  | add | mul | sub | div | and | or | xor | mod =>
    rw [datapathExec_of_twoPort hsig rfl]
    rfl
  | addi | andi | hiconst =>
    rw [datapathExec_of_immediate hsig rfl]
    rfl
  | sll =>
    rw [datapathExec_of_immediate hsig rfl, alu_sll]
    rfl
  | sra =>
    rw [datapathExec_of_immediate hsig rfl, alu_sra]
    rfl
  | srl =>
    rw [datapathExec_of_immediate hsig rfl, alu_srl]
    rfl
  | cmp | cmpu | cmpi | cmpiu =>
    rw [datapathExec_of_compare hsig rfl]
    rfl
  | not =>
    rw [datapathExec_not _ _ hsig]
    rfl
  | const =>
    rw [datapathExec_const _ _ hsig]
    rfl
  | jmp =>
    rw [datapathExec_jmp _ hsig]
    rfl
  | jmpr =>
    rw [datapathExec_jmpr _ _ hsig]
    rfl
  | jsr =>
    rw [datapathExec_jsr _ hsig]
    rfl
  | jsrr =>
    rw [datapathExec_jsrr _ _ hsig]
    rfl
  | ldr =>
    rw [datapathExec_ldr _ _ _ hsig]
    rfl
  | str =>
    rw [datapathExec_str _ _ _ hsig]
    rfl
  | rti =>
    rw [datapathExec_rti hsig]
    rfl
  | trap =>
    rw [datapathExec_trap _ hsig]
    rfl

end Datapath

end Sys2Proof.Machine
